-- ==== Sys2Proof/Word.lean ====
section
/-! DEFINITION. The 32-bit word every slot, status word and ALU operand is made of, and the notation of spec/00_scope.md R6. -/

namespace Sys2Proof

/-- `WORD` of R5: every register slot, SPSR slot, packed status word and ALU operand or result. -/
abbrev Word := BitVec 32

/-- The command word `CMD16` of R41. -/
abbrev CmdWord := BitVec 16

/-- A byte of the external memory bus (R31). -/
abbrev Byte := BitVec 8

/-- `uint(v)` of R6. -/
abbrev uint (v : Word) : Nat := v.toNat

/-- `sint(v)` of R6. -/
abbrev sint (v : Word) : Int := v.toInt

/-- `b2n(flag)` of R6. -/
abbrev b2n (flag : Bool) : Nat := flag.toNat

end Sys2Proof
end

