-- ==== Sys2Proof/Config.lean ====
section
/-! DEFINITION. The parameters of spec/00_scope.md R5: the set of modes, the policy for an invalid mode field, and the OPEN parameters of the driver and of the external bus, which are constants without a value. -/

namespace Sys2Proof

/-- The seven modes of R17. -/
inductive Mode where
  | User | FIQ | IRQ | SVC | ABT | UND | System
deriving DecidableEq, Repr

/-- `INVALID_M_POLICY` of R5 and 92_eei_decisions.md D7: what UNPACK and RESTORE do with a word whose mode field
names no mode. `fault` is the spec's default; `keepMode` installs the flags and `ctl` and leaves the mode. -/
inductive InvalidMPolicy where
  | fault | keepMode
deriving DecidableEq, Repr

/-- The `kind` argument of the driver's parameters: the three events that R117 quotes from the source, and any further
one a driver takes, by a number of its own (DESIGN CHOICE, log 9). -/
inductive EventKind where
  | interrupt
  | softwareInterrupt
  | undefinedInstruction
  | other (n : Nat)
deriving DecidableEq, Repr

/-- `VECTOR(kind)`: OPEN (92_eei_decisions.md D14). -/
opaque Config.vector : EventKind → Word

/-- `RETADDR(kind, pc)`: OPEN (92_eei_decisions.md D15). -/
opaque Config.retAddr : EventKind → Word → Word

/-- `RETADJ(kind)`: OPEN (92_eei_decisions.md D15). -/
opaque Config.retAdj : EventKind → Word

/-- `PRIORITY`: OPEN (92_eei_decisions.md D17); the kind with the lower rank is taken first. -/
opaque Config.priority : EventKind → Nat

/-- `ADDR_WIDTH` of the external bus, less 2: OPEN (92_eei_decisions.md D18). -/
opaque Config.addrWidthLessTwo : Nat

/-- `ADDR_WIDTH`: at least 2, since the bus has accesses of 4 bytes (R31; DEDUCED, log 10). -/
def Config.addrWidth : Nat := Config.addrWidthLessTwo + 2

/-- `MISALIGNED_POLICY`, the read side: what the external bus answers to a read of `n` bytes at `a`, 2 or 4, that is
misaligned or leaves the address range, where `cells` are the bytes the bus holds. OPEN (92_eei_decisions.md D18;
93_implementation_defined.md A11, A12). DESIGN CHOICE (log 10): the same read of the same contents always answers the
same, and it leaves the contents alone. -/
opaque Config.openRead (a n : Nat) (cells : List Host.Cell) : Word

/-- `MISALIGNED_POLICY`, the write side: the byte writes the external bus makes for such a write, at any addresses, where
`cells` are the bytes it holds before. OPEN, as `openRead`. DESIGN CHOICE (log 10): the same write to the same contents
always makes the same byte writes, and the bus goes on. -/
opaque Config.openStores (a n : Nat) (v : Word) (cells : List Host.Cell) : List Host.Cell

/-- What a byte of the external bus holds that the driver has not written: not in the source, so a free value. -/
opaque Config.busByte : Nat → Byte

end Sys2Proof
end

