-- ==== Sys2Proof/Syntax.lean ====
section
/-! DEFINITION. The 28 operations of spec/opcode_table.json (30_encoding.md R47), one constructor each, and the names of the two spellings that select none. -/

namespace Sys2Proof

/-- The operations of R47 with the fields their command words carry. The data operands `A` and `B` are input signals
(R40) and stand in the machine's state. A selector is a natural number, reduced where it is used (R43, R44). -/
inductive Instr where
  | curmode
  | setmode (md : BitVec 3)
  | bank1314
  | bank812
  | spsridx
  | pack
  | unpack
  | wrflags
  | rdspsr
  | wrspsr
  | restore
  | mrgspsrf
  | rdlow (idx : Nat)
  | wrlow (idx : Nat)
  | rdhigh (idx : Nat)
  | wrhigh (idx : Nat)
  | rdarch (reg : Nat)
  | wrarch (reg : Nat)
  | rdsp
  | wrsp
  | rdlr
  | wrlr
  | rdpc
  | wrpc
  | add
  | sub
  | adc (ci : Bool)
  | sbc (ci : Bool)
deriving DecidableEq, Repr

/-- Why the decoder gives no operation (R52). -/
inductive DecodeError where
  /-- `OP` is 0x0C, 0x0D, 0x0E or 0x0F (R48). -/
  | reservedOpcode
  /-- `OP` is SETMODE's and `MD` is 7 (R45). -/
  | reservedModeCode
deriving DecidableEq, Repr

end Sys2Proof
end

