-- ==== Sys2Proof/WellFormed.lean ====
section
/-! DEFINITION. Which terms of Instr some command word spells (30_encoding.md R41 to R45). -/

namespace Sys2Proof

/-- SETMODE has a mode code that names a mode (R45); a port index fits `SEL[2:0]` (R44) and an architectural register
number fits `SEL[3:0]` (R43). Every other operation is well formed. -/
def Instr.wf : Instr → Bool
  | .setmode md => md != 7
  | .rdlow idx | .wrlow idx | .rdhigh idx | .wrhigh idx => idx < 8
  | .rdarch reg | .wrarch reg => reg < 16
  | .curmode | .bank1314 | .bank812 | .spsridx | .pack | .unpack | .wrflags => true
  | .rdspsr | .wrspsr | .restore | .mrgspsrf => true
  | .rdsp | .wrsp | .rdlr | .wrlr | .rdpc | .wrpc => true
  | .add | .sub | .adc _ | .sbc _ => true

/-- `Instr.wf` as a proposition. -/
abbrev Instr.WellFormed (i : Instr) : Prop := i.wf = true

end Sys2Proof
end

