-- ==== Sys2Proof/Decode.lean ====
section
/-! DEFINITION. The command word's fields, the decoder of 30_encoding.md R52 and the encoder that R53's assembler is. -/

namespace Sys2Proof

/-- `OP` = CMD[15:11] (R41). -/
def opField (w : CmdWord) : BitVec 5 := w.extractLsb' 11 5

/-- `SEL[3:0]` = CMD[10:7] (R41, R43). -/
def selField (w : CmdWord) : BitVec 4 := w.extractLsb' 7 4

/-- `SEL[2:0]` = CMD[9:7] (R44). -/
def idxField (w : CmdWord) : BitVec 3 := w.extractLsb' 7 3

/-- `MD` = CMD[6:4] (R41, R45). -/
def mdField (w : CmdWord) : BitVec 3 := w.extractLsb' 4 3

/-- `CI` = CMD[3], as the carry-in of R46. -/
def ciField (w : CmdWord) : Bool := w.getLsbD 3

/-- SETMODE's decoding: `MD` = 7 names no mode and is refused (R45, R52). -/
def decodeSetmode (md : BitVec 3) : Except DecodeError Instr :=
  if md = 7 then .error .reservedModeCode else .ok (.setmode md)

/-- `decode(CMD)` of R52, total on every 16-bit word: the opcode map of R47 and the reserved codes of R48. -/
def decode (w : CmdWord) : Except DecodeError Instr :=
  match (opField w).toNat with
  | 0x00 => .ok .curmode
  | 0x01 => decodeSetmode (mdField w)
  | 0x02 => .ok .bank1314
  | 0x03 => .ok .bank812
  | 0x04 => .ok .spsridx
  | 0x05 => .ok .pack
  | 0x06 => .ok .unpack
  | 0x07 => .ok .wrflags
  | 0x08 => .ok .rdspsr
  | 0x09 => .ok .wrspsr
  | 0x0A => .ok .restore
  | 0x0B => .ok .mrgspsrf
  | 0x10 => .ok (.rdlow (idxField w).toNat)
  | 0x11 => .ok (.wrlow (idxField w).toNat)
  | 0x12 => .ok (.rdhigh (idxField w).toNat)
  | 0x13 => .ok (.wrhigh (idxField w).toNat)
  | 0x14 => .ok (.rdarch (selField w).toNat)
  | 0x15 => .ok (.wrarch (selField w).toNat)
  | 0x16 => .ok .rdsp
  | 0x17 => .ok .wrsp
  | 0x18 => .ok .rdlr
  | 0x19 => .ok .wrlr
  | 0x1A => .ok .rdpc
  | 0x1B => .ok .wrpc
  | 0x1C => .ok .add
  | 0x1D => .ok .sub
  | 0x1E => .ok (.adc (ciField w))
  | 0x1F => .ok (.sbc (ciField w))
  | _ => .error .reservedOpcode

/-- The `OP` value of each operation: the first column of R47. -/
def Instr.opcode : Instr → BitVec 5
  | .curmode => 0x00
  | .setmode _ => 0x01
  | .bank1314 => 0x02
  | .bank812 => 0x03
  | .spsridx => 0x04
  | .pack => 0x05
  | .unpack => 0x06
  | .wrflags => 0x07
  | .rdspsr => 0x08
  | .wrspsr => 0x09
  | .restore => 0x0A
  | .mrgspsrf => 0x0B
  | .rdlow _ => 0x10
  | .wrlow _ => 0x11
  | .rdhigh _ => 0x12
  | .wrhigh _ => 0x13
  | .rdarch _ => 0x14
  | .wrarch _ => 0x15
  | .rdsp => 0x16
  | .wrsp => 0x17
  | .rdlr => 0x18
  | .wrlr => 0x19
  | .rdpc => 0x1A
  | .wrpc => 0x1B
  | .add => 0x1C
  | .sub => 0x1D
  | .adc _ => 0x1E
  | .sbc _ => 0x1F

/-- A command word from its fields (R41); the bits 2..0, which no command uses, are 0 (R53). -/
def commandWord (op : BitVec 5) (sel : BitVec 4) (md : BitVec 3) (ci : Bool) : CmdWord :=
  op ++ sel ++ md ++ BitVec.ofBool ci ++ 0#3

/-- The canonical command word of an operation: R53's assembler sets every unused field to 0. -/
def encode : Instr → CmdWord
  | .setmode md => commandWord 0x01 0 md false
  | .rdlow idx => commandWord 0x10 (BitVec.ofNat 4 (idx % 8)) 0 false
  | .wrlow idx => commandWord 0x11 (BitVec.ofNat 4 (idx % 8)) 0 false
  | .rdhigh idx => commandWord 0x12 (BitVec.ofNat 4 (idx % 8)) 0 false
  | .wrhigh idx => commandWord 0x13 (BitVec.ofNat 4 (idx % 8)) 0 false
  | .rdarch reg => commandWord 0x14 (BitVec.ofNat 4 (reg % 16)) 0 false
  | .wrarch reg => commandWord 0x15 (BitVec.ofNat 4 (reg % 16)) 0 false
  | .adc ci => commandWord 0x1E 0 0 ci
  | .sbc ci => commandWord 0x1F 0 0 ci
  | i => commandWord i.opcode 0 0 false

/-- The command word whose bits the opcode table numbers `w`: the table's rows are 16 bits, one word, numbered as R41
numbers them, so bits at `nbits` and above are 0 and the word is `w`. -/
def tableWord (nbits w : Nat) : CmdWord := BitVec.ofNat 16 (w % 2 ^ nbits)

/-- The operation the decoder reads from a word of the opcode table. -/
def decodeTableWord (nbits w : Nat) : Option Instr :=
  match decode (tableWord nbits w) with
  | .ok i => some i
  | .error _ => none

end Sys2Proof
end

