-- ==== Sys2Proof/Machine/State.lean ====
section
/-! DEFINITION. Everything the spec gives one instance: the state elements of 10_state.md R10, the interface signals of 30_encoding.md R40, the driver's pending requests, and the two parameters an instance is built with. -/

namespace Sys2Proof.Machine

/-- The current status as separate fields (R15): the mode, the four condition flags, and `ctl`, the 23 passthrough
control bits that R18 places at bits 27..5 of the status word. -/
structure Cpsr where
  mode : Mode
  N : Bool
  Z : Bool
  C : Bool
  V : Bool
  ctl : BitVec 23
deriving DecidableEq, Repr

/-- One of the 31 general-register slots of R10, by the name R80 gives it. -/
inductive Slot where
  /-- `R0_7[i]` -/
  | low (i : Fin 8)
  /-- `R8_12[b][j]` -/
  | mid (b : Fin 2) (j : Fin 5)
  /-- `R13_14[b][k]`: k = 0 is SP, k = 1 is LR -/
  | spLr (b : Fin 6) (k : Fin 2)
  /-- `PC` -/
  | pc
deriving DecidableEq, Repr

/-- One command as the driver presents it: `CMD`, `A` and `B` (R40). -/
structure Command where
  cmd : CmdWord
  a : Word
  b : Word
deriving DecidableEq, Repr

/-- What the driver does to the block in one step. -/
inductive Request where
  /-- present one command (R40) -/
  | command (c : Command)
  /-- assert the RESET input (R40, R130) -/
  | reset
  /-- present two commands to the instance at once, which is outside its contract (R37) -/
  | concurrent (first second : Command)
deriving DecidableEq, Repr

/-- The spec's outcome Fault (00_scope.md R8, 60_exceptions.md R116). The state is unchanged. -/
inductive Fault where
  /-- Raised by UNPACK on the word on `A` and by RESTORE on the current mode's SPSR when its mode field names no mode
  and the policy is `fault` (R61, R72). It carries what R116 records, the command word and the offending status word.
  Safe: the machine stops where the source gives the word no meaning. -/
  | invalidModeField (cmd : CmdWord) (word : Word)
deriving DecidableEq, Repr

/-- The spec's outcome Refused (00_scope.md R8, 60_exceptions.md R116). The state is unchanged. -/
inductive Refusal where
  /-- Answered by `exec` for an operation that has no meaning yet; no arm answers it. Safe. -/
  | notModelled (mnemonic : String)
  /-- Answered by `step` for a command word with `OP` 0x0C to 0x0F (R48), with the command word R116 records. Safe. -/
  | reservedOpcode (cmd : CmdWord)
  /-- Answered by `step`, and by SETMODE's meaning, for SETMODE with `MD` = 7 (R45, R56), with the command word. Safe. -/
  | reservedModeCode (cmd : CmdWord)
  /-- Answered by `step` when two commands are presented at once (R37, 92_eei_decisions.md D1). Safe. -/
  | concurrentCommands (first second : CmdWord)
deriving DecidableEq, Repr

/-- The machine. -/
structure State where
  /-- registers 0 to 7, unbanked (R11) -/
  R0_7 : Vector Word 8
  /-- registers 8 to 12: bank 0 normal, bank 1 FIQ (R12) -/
  R8_12 : Vector (Vector Word 5) 2
  /-- registers 13 (index 0) and 14 (index 1): banks User/System, FIQ, IRQ, SVC, ABT, UND (R13) -/
  R13_14 : Vector (Vector Word 2) 6
  /-- register 15 (R14) -/
  PC : Word
  /-- the current status (R15) -/
  CPSR : Cpsr
  /-- the saved status words of FIQ, IRQ, SVC, ABT, UND (R16) -/
  SPSR : Vector Word 5
  /-- the command word last presented (R40) -/
  CMD : CmdWord
  /-- the data operand last presented (R40) -/
  A : Word
  /-- the second ALU operand last presented (R40) -/
  B : Word
  /-- the result output of the last request, `none` where it drives none (R40, R50) -/
  Y : Option Word
  /-- the flag output of the last request, bit 3 N, bit 2 Z, bit 1 C, bit 0 V, `none` where it drives none (R40, R50) -/
  F : Option (BitVec 4)
  /-- what the driver presents in the coming steps, the next first (R9, R40) -/
  pending : List Request
  /-- `RESET_MODE`, the parameter of R131 this instance is built with -/
  resetMode : Mode
  /-- `INVALID_M_POLICY`, the parameter of R5 this instance is built with -/
  invalidMPolicy : InvalidMPolicy
deriving DecidableEq, Repr

/-- The current status right after reset with `RESET_MODE` = `m` (R15, R130). -/
def Cpsr.reset (m : Mode) : Cpsr :=
  { mode := m, N := false, Z := false, C := false, V := false, ctl := 0 }

/-- A fresh instance (R130) with `RESET_MODE` = `m` and `INVALID_M_POLICY` = `p`: every slot zero, nothing presented yet
and no output driven. -/
def State.resetWith (m : Mode) (p : InvalidMPolicy) : State where
  R0_7 := Vector.replicate 8 0
  R8_12 := Vector.replicate 2 (Vector.replicate 5 0)
  R13_14 := Vector.replicate 6 (Vector.replicate 2 0)
  PC := 0
  CPSR := Cpsr.reset m
  SPSR := Vector.replicate 5 0
  CMD := 0
  A := 0
  B := 0
  Y := none
  F := none
  pending := []
  resetMode := m
  invalidMPolicy := p

/-- The one fresh instance the host runs: the spec's default policy (D7), and SVC for the OPEN `RESET_MODE`
(PRESUMED, the family's; log 4). Statements about reset are made of `State.resetWith m p` for every `m` and `p`. -/
def State.reset : State := State.resetWith .SVC .fault

end Sys2Proof.Machine
end

