-- ==== Sys2Proof/Machine/Flags.lean ====
section
/-! DEFINITION. The flag ALU's arithmetic and its four flags (43_flag_alu.md R101 to R105), each from the rule's own formula. -/

namespace Sys2Proof.Machine

/-- A result with its four flags. -/
structure AluResult where
  r : Word
  N : Bool
  Z : Bool
  C : Bool
  V : Bool
deriving DecidableEq, Repr

/-- `F`: bit 3 N, bit 2 Z, bit 1 C, bit 0 V (R40). -/
def flagBits (n z c v : Bool) : BitVec 4 :=
  BitVec.ofBool n ++ BitVec.ofBool z ++ BitVec.ofBool c ++ BitVec.ofBool v

/-- N and Z from the result, beside an operation's own C and V (R101). -/
def aluResult (r : Word) (c v : Bool) : AluResult :=
  { r := r, N := r.getLsbD 31, Z := r == 0, C := c, V := v }

/-- V of ADD: `(a[31] == b[31]) and (r[31] != a[31])` (R102). -/
def overflowAdd (a b r : Word) : Bool :=
  a.getLsbD 31 == b.getLsbD 31 && r.getLsbD 31 != a.getLsbD 31

/-- V of SUB and SBC: `(a[31] != b[31]) and (r[31] != a[31])` (R103, R105). -/
def overflowSub (a b r : Word) : Bool :=
  a.getLsbD 31 != b.getLsbD 31 && r.getLsbD 31 != a.getLsbD 31

/-- An exact integer lies outside the signed 32-bit range (R104). -/
def outsideSigned (x : Int) : Bool := !(-2 ^ 31 ≤ x && x ≤ 2 ^ 31 - 1)

/-- ADD (R102). -/
def aluAdd (a b : Word) : AluResult :=
  let s := uint a + uint b
  let r := BitVec.ofNat 32 s
  aluResult r (s > 2 ^ 32 - 1) (overflowAdd a b r)

/-- SUB (R103). -/
def aluSub (a b : Word) : AluResult :=
  let r := BitVec.ofInt 32 ((uint a : Int) - (uint b : Int))
  aluResult r (uint a ≥ uint b) (overflowSub a b r)

/-- ADC (R104). -/
def aluAdc (a b : Word) (ci : Bool) : AluResult :=
  let s := uint a + uint b + b2n ci
  let r := BitVec.ofNat 32 s
  aluResult r (s > 2 ^ 32 - 1) (outsideSigned (sint a + sint b + b2n ci))

/-- SBC (R105). -/
def aluSbc (a b : Word) (ci : Bool) : AluResult :=
  let d : Int := (uint a : Int) - (uint b : Int) - (1 - (b2n ci : Int))
  let r := BitVec.ofInt 32 d
  aluResult r (d ≥ 0) (overflowSub a b r)

end Sys2Proof.Machine
end

