-- ==== Sys2Proof/Machine/Modes.lean ====
section
/-! DEFINITION. The mode table of 10_state.md R17: each mode's command code, status-word mode field, bank indices and SPSR index, and the inverses. -/

namespace Sys2Proof.Machine

/-- The 3-bit command code of a mode (R17, R45). -/
def code : Mode → BitVec 3
  | .User => 0
  | .FIQ => 1
  | .IRQ => 2
  | .SVC => 3
  | .ABT => 4
  | .UND => 5
  | .System => 6

/-- `mode_of_code` of R56: the mode a command code names; 7 names none (R45). -/
def modeOfCode (md : BitVec 3) : Option Mode :=
  match md.toNat with
  | 0 => some .User
  | 1 => some .FIQ
  | 2 => some .IRQ
  | 3 => some .SVC
  | 4 => some .ABT
  | 5 => some .UND
  | 6 => some .System
  | _ => none

/-- `M(m)`: the mode field M[4:0] of the packed status word (R17, R18). -/
def modeField : Mode → BitVec 5
  | .User => 0x10
  | .FIQ => 0x11
  | .IRQ => 0x12
  | .SVC => 0x13
  | .ABT => 0x17
  | .UND => 0x1B
  | .System => 0x1F

/-- `decodeM(f)` of R62; `none` is INVALID. -/
def decodeM (f : BitVec 5) : Option Mode :=
  match f.toNat with
  | 0x10 => some .User
  | 0x11 => some .FIQ
  | 0x12 => some .IRQ
  | 0x13 => some .SVC
  | 0x17 => some .ABT
  | 0x1B => some .UND
  | 0x1F => some .System
  | _ => none

/-- `BANK1314(m)` of R57. -/
def bank1314 : Mode → Fin 6
  | .User => 0
  | .FIQ => 1
  | .IRQ => 2
  | .SVC => 3
  | .ABT => 4
  | .UND => 5
  | .System => 0

/-- `BANK812(m)` of R58. -/
def bank812 : Mode → Fin 2
  | .FIQ => 1
  | .User | .IRQ | .SVC | .ABT | .UND | .System => 0

/-- `SIDX(m)` of R59; `none` is NONE. -/
def spsrIndex : Mode → Option (Fin 5)
  | .User => none
  | .FIQ => some 0
  | .IRQ => some 1
  | .SVC => some 2
  | .ABT => some 3
  | .UND => some 4
  | .System => none

end Sys2Proof.Machine
end

