-- ==== Sys2Proof/Machine/Operands.lean ====
section
/-! DEFINITION. Operand assembly (30_encoding.md R43, R44, R51): selectors are reduced and never rejected. -/

namespace Sys2Proof.Machine

/-- `reg := sel mod 16` (R43). -/
def archSel (sel : Nat) : Fin 16 := ⟨sel % 16, Nat.mod_lt sel (by decide)⟩

/-- `idx := sel mod 8` (R44). -/
def portSel (sel : Nat) : Fin 8 := ⟨sel % 8, Nat.mod_lt sel (by decide)⟩

/-- The low port's index as an architectural register number (R82). -/
def lowReg (idx : Nat) : Nat := (portSel idx).val

/-- The high port's index as an architectural register number, `8 + idx` (R84). -/
def highReg (idx : Nat) : Nat := 8 + (portSel idx).val

/-- The value of an SPSR index on `Y`: NONE is 7 (R51). -/
def spsrIndexWord : Option (Fin 5) → Word
  | none => 7
  | some k => BitVec.ofNat 32 k.val

end Sys2Proof.Machine
end

