-- ==== Sys2Proof/Machine/Ops.lean ====
section
/-! DEFINITION. The operations the meanings share: slots and banked register access (42_register_file.md R80, R81), the status word (40_mode_state.md R60 to R62), the saved-status multiplexer (41_saved_status.md), outputs (30_encoding.md R50), reset (70_reset_and_hazards.md R130), and exception entry and return (60_exceptions.md R118, R119). -/

namespace Sys2Proof.Machine

/-! ### Plain updates -/

/-- Drive the outputs of a request (R50): `none` is an output that is not driven. -/
def State.withOutputs (s : State) (y : Option Word) (f : Option (BitVec 4)) : State := { s with Y := y, F := f }

/-- Replace the current status. -/
def State.withCpsr (s : State) (c : Cpsr) : State := { s with CPSR := c }

/-- Replace one SPSR slot. -/
def State.withSpsr (s : State) (k : Fin 5) (w : Word) : State := { s with SPSR := s.SPSR.set k.val w }

/-- Present a command on `CMD`, `A` and `B` (R40). -/
def State.withInputs (s : State) (c : Command) : State := { s with CMD := c.cmd, A := c.a, B := c.b }

/-- Replace the driver's pending requests. -/
def State.withPending (s : State) (p : List Request) : State := { s with pending := p }

/-! ### Outputs -/

/-- An operation that drives `Y` alone (R50). -/
def driveY (y : Word) (s : State) : Host.Outcome State Fault Refusal := .next (s.withOutputs (some y) none)

/-- An operation that drives no output (R50). -/
def driveNone (s : State) : Host.Outcome State Fault Refusal := .next (s.withOutputs none none)

/-- An ALU operation: it drives `Y` and `F` and touches nothing else (R100, R101). -/
def driveAlu (x : AluResult) (s : State) : Host.Outcome State Fault Refusal :=
  .next (s.withOutputs (some x.r) (some (flagBits x.N x.Z x.C x.V)))

/-! ### Register slots -/

/-- `slotOf(m, r)` of R80. -/
def slotOf (m : Mode) (r : Fin 16) : Slot :=
  if h : r.val < 8 then .low ⟨r.val, h⟩
  else if h : r.val < 13 then .mid (bank812 m) ⟨r.val - 8, by omega⟩
  else if h : r.val < 15 then .spLr (bank1314 m) ⟨r.val - 13, by omega⟩
  else .pc

/-- The word a slot holds. -/
def readSlot (s : State) : Slot → Word
  | .low i => s.R0_7[i.val]
  | .mid b j => s.R8_12[b.val][j.val]
  | .spLr b k => s.R13_14[b.val][k.val]
  | .pc => s.PC

/-- Store a word in a slot. -/
def writeSlot (s : State) (x : Slot) (v : Word) : State :=
  match x with
  | .low i => { s with R0_7 := s.R0_7.set i.val v }
  | .mid b j => { s with R8_12 := s.R8_12.set b.val (s.R8_12[b.val].set j.val v) }
  | .spLr b k => { s with R13_14 := s.R13_14.set b.val (s.R13_14[b.val].set k.val v) }
  | .pc => { s with PC := v }

/-- `x[r]` of R81: through the slot map of the current mode, for a selector of any width. -/
def readReg (s : State) (r : Nat) : Word := readSlot s (slotOf s.CPSR.mode (archSel r))

/-- `x[r] <- v` of R81. -/
def writeReg (r : Nat) (v : Word) (s : State) : State := writeSlot s (slotOf s.CPSR.mode (archSel r)) v

/-! ### The status word -/

/-- `pack()` of R60. -/
def packStatus (c : Cpsr) : Word :=
  (BitVec.ofNat 32 (b2n c.N) <<< 31) ||| (BitVec.ofNat 32 (b2n c.Z) <<< 30) |||
  (BitVec.ofNat 32 (b2n c.C) <<< 29) ||| (BitVec.ofNat 32 (b2n c.V) <<< 28) |||
  (c.ctl.setWidth 32 <<< 5) ||| (modeField c.mode).setWidth 32

/-- The status whose flags are `w[31:28]`, whose `ctl` is `w[27:5]` and whose mode is `m` (R61). -/
def unpackStatus (w : Word) (m : Mode) : Cpsr :=
  { mode := m, N := w.getLsbD 31, Z := w.getLsbD 30, C := w.getLsbD 29, V := w.getLsbD 28, ctl := w.extractLsb' 5 23 }

/-- Replace the mode and nothing else (R56, R65). -/
def setMode (m : Mode) (s : State) : State := s.withCpsr { s.CPSR with mode := m }

/-- Replace the four flags by `w[31:28]` and nothing else (R64). -/
def setFlags (w : Word) (s : State) : State :=
  s.withCpsr { s.CPSR with N := w.getLsbD 31, Z := w.getLsbD 30, C := w.getLsbD 29, V := w.getLsbD 28 }

/-- Install a status word (R61; R72 for the saved one). A word whose mode field names no mode faults with the state
unchanged, or under the policy `keepMode` installs the flags and `ctl` and leaves the mode (92_eei_decisions.md D7). -/
def installStatus (w : Word) (s : State) : Host.Outcome State Fault Refusal :=
  match decodeM (w.extractLsb' 0 5), s.invalidMPolicy with
  | some m, _ => driveNone (s.withCpsr (unpackStatus w m))
  | none, .fault => .fault (.invalidModeField s.CMD w)
  | none, .keepMode => driveNone (s.withCpsr (unpackStatus w s.CPSR.mode))

/-! ### The saved-status multiplexer -/

/-- `readSavedStatus()` (R70): the current mode's slot, or the current status word where there is none. -/
def readSavedStatus (s : State) : Word :=
  match spsrIndex s.CPSR.mode with
  | none => packStatus s.CPSR
  | some k => s.SPSR[k.val]

/-- `writeSavedStatus(word)` (R71): the current mode's slot, or no effect where there is none. -/
def writeSavedStatus (w : Word) (s : State) : State :=
  match spsrIndex s.CPSR.mode with
  | none => s
  | some k => s.withSpsr k w

/-- `mergeFlagBitsIntoSavedStatus(word)` (R73): bits 31..28 of the current mode's slot, or no effect. -/
def mergeSavedFlags (w : Word) (s : State) : State :=
  match spsrIndex s.CPSR.mode with
  | none => s
  | some k => s.withSpsr k ((w &&& 0xF0000000#32) ||| (s.SPSR[k.val] &&& 0x0FFFFFFF#32))

/-- `copySavedStatusIntoCurrent()` (R72): install the current mode's slot, or no effect where there is none. -/
def restoreSavedStatus (s : State) : Host.Outcome State Fault Refusal :=
  match spsrIndex s.CPSR.mode with
  | none => driveNone s
  | some k => installStatus s.SPSR[k.val] s

/-! ### Exception entry and return: the driver's contracts, as one operation each -/

/-- Exception entry (R118): the status word of the interrupted mode goes to the target's SPSR, the return address to
the target's LR, the vector to the PC. No control bit changes (R120). -/
def enterException (target : Mode) (ret vec : Word) (s : State) : State :=
  writeReg 15 vec (writeReg 14 ret (writeSavedStatus (packStatus s.CPSR) (setMode target s)))

/-- Exception return (R119): the exiting mode's LR, read before its saved status is restored, less `adj`, goes to the PC. -/
def returnFromException (adj : Word) (s : State) : Host.Outcome State Fault Refusal :=
  match restoreSavedStatus s with
  | .next t => .next (writeReg 15 (readReg s 14 - adj) t)
  | .fault f => .fault f
  | .refused r => .refused r

/-! ### Requests that are no command -/

/-- The RESET input (R130): every element of R10 to its reset value, with this instance's `RESET_MODE`. It drives no
output and leaves the inputs, the driver's requests and the parameters alone. -/
def resetInput (s : State) : Host.Outcome State Fault Refusal :=
  .next { State.resetWith s.resetMode s.invalidMPolicy with CMD := s.CMD, A := s.A, B := s.B, pending := s.pending }

/-- A step in which the driver presents nothing: no element changes (R126) and no output is driven (log 2). -/
def idle (s : State) : Host.Outcome State Fault Refusal := driveNone s

end Sys2Proof.Machine
end

