-- ==== Sys2Proof/Machine/FlagAlu.lean ====
section
/-! DEFINITION. The meanings of the flag ALU's operations (43_flag_alu.md R100 to R105): they read `A`, `B` and the carry-in of the command, never `CPSR.C` (R111). -/

namespace Sys2Proof.Machine

/-- ADD (R102). -/
def execAdd (s : State) : Host.Outcome State Fault Refusal := driveAlu (aluAdd s.A s.B) s

/-- SUB (R103). -/
def execSub (s : State) : Host.Outcome State Fault Refusal := driveAlu (aluSub s.A s.B) s

/-- ADC (R104). -/
def execAdc (ci : Bool) (s : State) : Host.Outcome State Fault Refusal := driveAlu (aluAdc s.A s.B ci) s

/-- SBC (R105). -/
def execSbc (ci : Bool) (s : State) : Host.Outcome State Fault Refusal := driveAlu (aluSbc s.A s.B ci) s

end Sys2Proof.Machine
end

