-- ==== Sys2Proof/Machine/ModeState.lean ====
section
/-! DEFINITION. The meanings of the ModeState operations (40_mode_state.md R55 to R64). -/

namespace Sys2Proof.Machine

/-- CURMODE (R55). -/
def execCurmode (s : State) : Host.Outcome State Fault Refusal := driveY ((code s.CPSR.mode).setWidth 32) s

/-- SETMODE (R56). -/
def execSetmode (md : BitVec 3) (s : State) : Host.Outcome State Fault Refusal :=
  match modeOfCode md with
  | some m => driveNone (setMode m s)
  | none => .refused (.reservedModeCode s.CMD)

/-- BANK1314 (R57). -/
def execBank1314 (s : State) : Host.Outcome State Fault Refusal :=
  driveY (BitVec.ofNat 32 (bank1314 s.CPSR.mode).val) s

/-- BANK812 (R58). -/
def execBank812 (s : State) : Host.Outcome State Fault Refusal :=
  driveY (BitVec.ofNat 32 (bank812 s.CPSR.mode).val) s

/-- SPSRIDX (R59). -/
def execSpsridx (s : State) : Host.Outcome State Fault Refusal :=
  driveY (spsrIndexWord (spsrIndex s.CPSR.mode)) s

/-- PACK (R60). -/
def execPack (s : State) : Host.Outcome State Fault Refusal := driveY (packStatus s.CPSR) s

/-- UNPACK (R61). -/
def execUnpack (s : State) : Host.Outcome State Fault Refusal := installStatus s.A s

/-- WRFLAGS (R64). -/
def execWrflags (s : State) : Host.Outcome State Fault Refusal := driveNone (setFlags s.A s)

end Sys2Proof.Machine
end

