-- ==== Sys2Proof/Machine/RegisterFile.lean ====
section
/-! DEFINITION. The meanings of the register-file ports (42_register_file.md R82 to R93). -/

namespace Sys2Proof.Machine

/-- RDLOW (R82). -/
def execRdlow (idx : Nat) (s : State) : Host.Outcome State Fault Refusal := driveY (readReg s (lowReg idx)) s

/-- WRLOW (R83). -/
def execWrlow (idx : Nat) (s : State) : Host.Outcome State Fault Refusal := driveNone (writeReg (lowReg idx) s.A s)

/-- RDHIGH (R84). -/
def execRdhigh (idx : Nat) (s : State) : Host.Outcome State Fault Refusal := driveY (readReg s (highReg idx)) s

/-- WRHIGH (R85). -/
def execWrhigh (idx : Nat) (s : State) : Host.Outcome State Fault Refusal := driveNone (writeReg (highReg idx) s.A s)

/-- RDARCH (R86). -/
def execRdarch (reg : Nat) (s : State) : Host.Outcome State Fault Refusal := driveY (readReg s reg) s

/-- WRARCH (R87). -/
def execWrarch (reg : Nat) (s : State) : Host.Outcome State Fault Refusal := driveNone (writeReg reg s.A s)

/-- RDSP (R88): `x[13]`. -/
def execRdsp (s : State) : Host.Outcome State Fault Refusal := driveY (readReg s 13) s

/-- WRSP (R89). -/
def execWrsp (s : State) : Host.Outcome State Fault Refusal := driveNone (writeReg 13 s.A s)

/-- RDLR (R90): `x[14]`. -/
def execRdlr (s : State) : Host.Outcome State Fault Refusal := driveY (readReg s 14) s

/-- WRLR (R91). -/
def execWrlr (s : State) : Host.Outcome State Fault Refusal := driveNone (writeReg 14 s.A s)

/-- RDPC (R92): the slot as last written, with no pipeline offset. -/
def execRdpc (s : State) : Host.Outcome State Fault Refusal := driveY (readReg s 15) s

/-- WRPC (R93): all 32 bits are stored. -/
def execWrpc (s : State) : Host.Outcome State Fault Refusal := driveNone (writeReg 15 s.A s)

end Sys2Proof.Machine
end

