-- ==== Sys2Proof/Machine/SavedStatus.lean ====
section
/-! DEFINITION. The meanings of the saved-status operations (41_saved_status.md R70 to R73). -/

namespace Sys2Proof.Machine

/-- RDSPSR (R70). -/
def execRdspsr (s : State) : Host.Outcome State Fault Refusal := driveY (readSavedStatus s) s

/-- WRSPSR (R71). -/
def execWrspsr (s : State) : Host.Outcome State Fault Refusal := driveNone (writeSavedStatus s.A s)

/-- RESTORE (R72). -/
def execRestore (s : State) : Host.Outcome State Fault Refusal := restoreSavedStatus s

/-- MRGSPSRF (R73). -/
def execMrgspsrf (s : State) : Host.Outcome State Fault Refusal := driveNone (mergeSavedFlags s.A s)

end Sys2Proof.Machine
end

