-- ==== Sys2Proof/Machine/Dispatch.lean ====
section
/-! DEFINITION. One arm per operation of 30_encoding.md R47. -/

namespace Sys2Proof.Machine

def exec (i : Instr) (s : State) : Host.Outcome State Fault Refusal :=
  match i with
  -- ModeState (40_mode_state.md)
  | .curmode => Sys2Proof.Machine.execCurmode s
  | .setmode md => Sys2Proof.Machine.execSetmode md s
  | .bank1314 => Sys2Proof.Machine.execBank1314 s
  | .bank812 => Sys2Proof.Machine.execBank812 s
  | .spsridx => Sys2Proof.Machine.execSpsridx s
  | .pack => Sys2Proof.Machine.execPack s
  | .unpack => Sys2Proof.Machine.execUnpack s
  | .wrflags => Sys2Proof.Machine.execWrflags s
  -- saved status (41_saved_status.md)
  | .rdspsr => Sys2Proof.Machine.execRdspsr s
  | .wrspsr => Sys2Proof.Machine.execWrspsr s
  | .restore => Sys2Proof.Machine.execRestore s
  | .mrgspsrf => Sys2Proof.Machine.execMrgspsrf s
  -- register file (42_register_file.md)
  | .rdlow idx => Sys2Proof.Machine.execRdlow idx s
  | .wrlow idx => Sys2Proof.Machine.execWrlow idx s
  | .rdhigh idx => Sys2Proof.Machine.execRdhigh idx s
  | .wrhigh idx => Sys2Proof.Machine.execWrhigh idx s
  | .rdarch reg => Sys2Proof.Machine.execRdarch reg s
  | .wrarch reg => Sys2Proof.Machine.execWrarch reg s
  | .rdsp => Sys2Proof.Machine.execRdsp s
  | .wrsp => Sys2Proof.Machine.execWrsp s
  | .rdlr => Sys2Proof.Machine.execRdlr s
  | .wrlr => Sys2Proof.Machine.execWrlr s
  | .rdpc => Sys2Proof.Machine.execRdpc s
  | .wrpc => Sys2Proof.Machine.execWrpc s
  -- flag ALU (43_flag_alu.md)
  | .add => Sys2Proof.Machine.execAdd s
  | .sub => Sys2Proof.Machine.execSub s
  | .adc ci => Sys2Proof.Machine.execAdc ci s
  | .sbc ci => Sys2Proof.Machine.execSbc ci s

end Sys2Proof.Machine
end

