-- ==== Sys2Proof/Machine/Fetch.lean ====
section
/-! DEFINITION. Issuing one command: present it, decode it, run it or refuse it by name (30_encoding.md R52; 60_exceptions.md R116). -/

namespace Sys2Proof.Machine

/-- The refusal of a command word that selects no operation (R45, R48, R116). -/
def refusalOf (w : CmdWord) : DecodeError → Refusal
  | .reservedOpcode => .reservedOpcode w
  | .reservedModeCode => .reservedModeCode w

/-- One command, presented and run (R40, R52). -/
def issue (c : Command) (s : State) : Host.Outcome State Fault Refusal :=
  match decode c.cmd with
  | .ok i => exec i (s.withInputs c)
  | .error e => .refused (refusalOf c.cmd e)

/-- One request of the driver, already taken from its pending requests. -/
def serve (q : Request) (s : State) : Host.Outcome State Fault Refusal :=
  match q with
  | .command c => issue c s
  | .reset => resetInput s
  | .concurrent c d => .refused (.concurrentCommands c.cmd d.cmd)

/-- The request that presents the canonical word of an operation with the data operands `a` and `b` (R53). -/
def asm (i : Instr) (a b : Word) : Request := .command { cmd := encode i, a := a, b := b }

/-- The request that presents a word of the opcode table, with `A` and `B` as they stand on the inputs. -/
def fetchRequest (s : State) (nbits w : Nat) : Request := .command { cmd := tableWord nbits w, a := s.A, b := s.B }

end Sys2Proof.Machine
end

