-- ==== Sys2Proof/Machine/Step.lean ====
section
/-! DEFINITION. One step of the machine: the driver's next request, taken whole (00_scope.md R9; 70_reset_and_hazards.md R135). -/

namespace Sys2Proof.Machine

/-- One request is served, atomically, before the next is presented (R9). With nothing pending the machine idles. -/
def step (s : State) : Host.Outcome State Fault Refusal :=
  match s.pending with
  | [] => idle s
  | q :: rest => serve q (s.withPending rest)

/-- `s` with a word of the opcode table as the driver's next command, before whatever else is pending; the data operands
are those standing on `A` and `B`. -/
def State.withFetchWord (s : State) (nbits w : Nat) : State := s.withPending (fetchRequest s nbits w :: s.pending)

end Sys2Proof.Machine
end

