-- ==== Sys2Proof/Machine/Bus.lean ====
section
/-! DEFINITION. The external memory bus as 20_memory.md R31 records its contract for the surrounding system. It is the driver's: no field of State holds it and no operation of the block reaches it (R30). -/

namespace Sys2Proof.Machine

/-- The bytes the driver has written, addresses strictly rising, none equal to what an unlisted address holds. -/
abbrev BusMemory := List Host.Cell

/-- The canonical form of a bus memory. -/
def busWf : BusMemory → Bool
  | [] => true
  | [c] => c.2 != Config.busByte c.1
  | c :: d :: rest => c.2 != Config.busByte c.1 && decide (c.1 < d.1) && busWf (d :: rest)

/-- One byte (R31, `read8`). DESIGN CHOICE (log 10): behind every address plain storage stands, one at or above
2 ^ `ADDR_WIDTH` included, so a byte reads as what was last stored there. What a byte access outside the address range
does is OPEN (R31, 92_eei_decisions.md D18): unsafe there. -/
def read8 (m : BusMemory) (a : Nat) : Byte :=
  match m with
  | [] => Config.busByte a
  | c :: rest => if c.1 = a then c.2 else read8 rest a

/-- A byte in front of the cells above it, unless it is what an unlisted address holds. -/
def consByte (a : Nat) (v : Byte) (m : BusMemory) : BusMemory :=
  if v = Config.busByte a then m else (a, v) :: m

/-- One byte stored (R31, `write8`), the canonical form kept. DESIGN CHOICE (log 10): as for `read8`, an address at or
above 2 ^ `ADDR_WIDTH` is plain storage too, where R31 and D18 leave the access OPEN: unsafe there. -/
def write8 (a : Nat) (v : Byte) (m : BusMemory) : BusMemory :=
  match m with
  | [] => consByte a v []
  | c :: rest =>
    if a < c.1 then consByte a v (c :: rest)
    else if a = c.1 then consByte a v rest
    else c :: write8 a v rest

/-- Bytes stored one after another. -/
def writeBytes : List Host.Cell → BusMemory → BusMemory
  | [], m => m
  | c :: rest, m => writeBytes rest (write8 c.1 c.2 m)

/-- A halfword or word access whose effect R31 gives: aligned, and inside the OPEN address range. Of any other the
source says nothing (R33), and the bus's own rule holds. -/
def busStated (a n : Nat) : Bool := a % n == 0 && decide (a + n ≤ 2 ^ Config.addrWidth)

/-- `read16` (R31): little-endian. -/
def read16 (m : BusMemory) (a : Nat) : BitVec 16 :=
  if busStated a 2 then read8 m (a + 1) ++ read8 m a else (Config.openRead a 2 m).setWidth 16

/-- `read32` (R31): little-endian. -/
def read32 (m : BusMemory) (a : Nat) : Word :=
  if busStated a 4 then read8 m (a + 3) ++ read8 m (a + 2) ++ read8 m (a + 1) ++ read8 m a else Config.openRead a 4 m

/-- The bytes of a halfword, the lowest address first (R31). -/
def halfCells (a : Nat) (v : BitVec 16) : List Host.Cell :=
  [(a, v.extractLsb' 0 8), (a + 1, v.extractLsb' 8 8)]

/-- The bytes of a word, the lowest address first (R31). -/
def wordCells (a : Nat) (v : Word) : List Host.Cell :=
  [(a, v.extractLsb' 0 8), (a + 1, v.extractLsb' 8 8), (a + 2, v.extractLsb' 16 8), (a + 3, v.extractLsb' 24 8)]

/-- `write16` (R31). -/
def write16 (a : Nat) (v : BitVec 16) (m : BusMemory) : BusMemory :=
  writeBytes (if busStated a 2 then halfCells a v else Config.openStores a 2 (v.setWidth 32) m) m

/-- `write32` (R31). -/
def write32 (a : Nat) (v : Word) (m : BusMemory) : BusMemory :=
  writeBytes (if busStated a 4 then wordCells a v else Config.openStores a 4 v m) m

end Sys2Proof.Machine
end

