-- ==== Sys2Proof/Machine/Driver.lean ====
section
/-! DEFINITION. The command sequences the spec obliges a driver to issue: the pseudo-instructions of 30_encoding.md R53, exception entry and return for a kind of event (60_exceptions.md R118, R119, R122), and boot (70_reset_and_hazards.md R132). A driver reads `Y` or `F` between commands; the value it read is the argument that a sequence built before the run takes in its place. -/

namespace Sys2Proof.Machine

/-- The pseudo-instruction NOP (R53): RDPC, whose result is discarded. -/
def nopRequests : List Request := [asm .rdpc 0 0]

/-- `WRFLAGS F` (R53): the flags of an ALU command on `A[31:28]`, 28 zero bits below. -/
def flagsOperand (f : BitVec 4) : Word := f ++ 0#28

/-- The pseudo-instruction SETFLAGS (R53): an ALU operation, then WRFLAGS of the flags `f` it gave. -/
def setflagsRequests (alu : Instr) (a b : Word) (f : BitVec 4) : List Request :=
  [asm alu a b, asm .wrflags (flagsOperand f) 0]

/-- The pseudo-instruction ENTER (R53, R118), where `w` is the `Y` of its PACK. -/
def enterRequests (target : Mode) (w ret vec : Word) : List Request :=
  [asm .pack 0 0, asm (.setmode (code target)) 0 0, asm .wrspsr w 0, asm .wrlr ret 0, asm .wrpc vec 0]

/-- The pseudo-instruction LEAVE (R53, R119), where `l` is the `Y` of its RDLR. -/
def leaveRequests (l adj : Word) : List Request :=
  [asm .rdlr 0 0, asm .restore 0 0, asm .wrpc (l - adj) 0]

/-- Entry for an event in state `s`, with the OPEN return address and vector of its kind (R117, R118). The driver
chooses the target mode (92_eei_decisions.md D23). -/
def enterFor (kind : EventKind) (target : Mode) (s : State) : List Request :=
  enterRequests target (packStatus s.CPSR) (Config.retAddr kind s.PC) (Config.vector kind)

/-- Return from an event in state `s`, with the OPEN adjustment of its kind (R119). -/
def leaveFor (kind : EventKind) (s : State) : List Request := leaveRequests (readReg s 14) (Config.retAdj kind)

/-- Insert an event among those that are taken before and after it. -/
def insertByPriority (e : EventKind) : List EventKind → List EventKind
  | [] => [e]
  | x :: rest => if Config.priority e ≤ Config.priority x then e :: x :: rest else x :: insertByPriority e rest

/-- The order in which events that arrive together are taken: the driver's OPEN `PRIORITY` (R122). -/
def eventOrder : List EventKind → List EventKind
  | [] => []
  | e :: rest => insertByPriority e (eventOrder rest)

/-- Step 2 of boot (R132): the stack pointer of each mode the program will use. -/
def stackRequests (sps : List (Mode × Word)) : List Request :=
  sps.flatMap fun p => [asm (.setmode (code p.1)) 0 0, asm .wrsp p.2 0]

/-- The boot sequence (R132): the running mode is selected, the stack pointers are set, the running mode is selected
again, and the PC is set. `select` and `again` are steps 1 and 3, each `UNPACK #w0` or `SETMODE m0` as the driver
chooses. -/
def bootSequence (select again : Request) (sps : List (Mode × Word)) (entry : Word) : List Request :=
  select :: (stackRequests sps ++ [again, asm .wrpc entry 0])

/-- The boot sequence with `UNPACK #w0` at steps 1 and 3 of R132. DESIGN CHOICE (log 16): R132 allows `SETMODE m0` at
either step as well; those sequences are `bootSequence` with that request. -/
def bootRequests (w0 : Word) (sps : List (Mode × Word)) (entry : Word) : List Request :=
  bootSequence (asm .unpack w0 0) (asm .unpack w0 0) sps entry

end Sys2Proof.Machine
end

