-- ==== Sys2Proof/Machine/Run.lean ====
section
/-! DEFINITION. A run that goes on past a fault or a refusal and keeps their marks (00_scope.md R8; 60_exceptions.md R116; 70_reset_and_hazards.md R130), as program P5 of 95_test_vectors.md does. -/

namespace Sys2Proof.Machine

/-- A state with the faults and refusals recorded so far, oldest first: the bookkeeping of R23, no state of the block. -/
structure Run where
  state : State
  faults : List Fault
  refusals : List Refusal
deriving DecidableEq, Repr

/-- The inputs as a request presents them; RESET and two commands at once leave them as they stand. -/
def presentRequest (q : Request) (s : State) : State :=
  match q with
  | .command c => s.withInputs c
  | .reset | .concurrent _ _ => s

/-- The state after a request that ended in Fault or Refused: it has been presented, no element of the block has
changed and no output is driven (R8, R48). -/
def afterStop (s : State) : State :=
  match s.pending with
  | [] => s
  | q :: rest => (presentRequest q (s.withPending rest)).withOutputs none none

/-- One step of a run: a fault or a refusal is recorded, never cleared, and the next request follows (R8, R130). -/
def advance (r : Run) : Run :=
  match step r.state with
  | .next t => { r with state := t }
  | .fault f => { r with state := afterStop r.state, faults := r.faults ++ [f] }
  | .refused q => { r with state := afterStop r.state, refusals := r.refusals ++ [q] }

/-- `k` steps of a run. -/
def advanceBy : Nat → Run → Run
  | 0, r => r
  | k + 1, r => advanceBy k (advance r)

end Sys2Proof.Machine
end

