-- ==== Sys2Proof/Safety.lean ====
section
/-! DEFINITION. The terms claims about the machine use: what a register holds in a mode, which modes share its slot, when the outputs fit together, and what a clean run is. -/

namespace Sys2Proof.Machine

/-- The value architectural register `r` has in mode `m`, whatever the current mode is (R94). -/
def regIn (s : State) (m : Mode) (r : Nat) : Word := readReg (setMode m s) r

/-- `m` and `m'` are User or System, which share every slot (R21). -/
def userOrSystem (m : Mode) : Bool := m = .User || m = .System

/-- R21 in its own words: the modes in which register `r` (0 to 15) is the same slot. -/
def sharesSlot (m m' : Mode) (r : Nat) : Bool :=
  r < 8 || r = 15 || m = m' || (userOrSystem m && userOrSystem m') || (8 ≤ r && r ≤ 12 && m != .FIQ && m' != .FIQ)

/-- What the outputs of one request have to do with each other: `F` is driven only with `Y`, and then its N and Z are
those of `Y` (R50, R101). -/
def OutputsAgree (s : State) : Prop :=
  ∀ f, s.F = some f → ∃ y, s.Y = some y ∧ f.getLsbD 3 = y.getLsbD 31 ∧ (f.getLsbD 2 = true ↔ y = 0)

/-- Two states with the same register slots. -/
def SameRegisters (s t : State) : Prop :=
  t.R0_7 = s.R0_7 ∧ t.R8_12 = s.R8_12 ∧ t.R13_14 = s.R13_14 ∧ t.PC = s.PC

/-- Two states with the same elements of R10. -/
def SameBlock (s t : State) : Prop := SameRegisters s t ∧ t.CPSR = s.CPSR ∧ t.SPSR = s.SPSR

/-- Two states with the same inputs, pending requests and parameters. -/
def SameSurroundings (s t : State) : Prop :=
  t.CMD = s.CMD ∧ t.A = s.A ∧ t.B = s.B ∧ t.pending = s.pending ∧ t.resetMode = s.resetMode ∧
  t.invalidMPolicy = s.invalidMPolicy

/-- The M[4:0] column of R17. -/
def modeFields : List (BitVec 5 × Mode) :=
  [(0x10, .User), (0x11, .FIQ), (0x12, .IRQ), (0x13, .SVC), (0x17, .ABT), (0x1B, .UND), (0x1F, .System)]

/-- The SPSR index column of R17: the five privileged modes and their slots. -/
def spsrSlots : List (Mode × Fin 5) := [(.FIQ, 0), (.IRQ, 1), (.SVC, 2), (.ABT, 3), (.UND, 4)]

/-- The mode field of a status word names one of the seven modes (R61 lists them). -/
def ValidModeField (w : Word) : Prop :=
  w.extractLsb' 0 5 ∈ ([0x10, 0x11, 0x12, 0x13, 0x17, 0x1B, 0x1F] : List (BitVec 5))

/-- The status a word with the mode `m` in its mode field stands for (R18). -/
def statusOf (w : Word) (m : Mode) : Cpsr where
  mode := m
  N := w.getLsbD 31
  Z := w.getLsbD 30
  C := w.getLsbD 29
  V := w.getLsbD 28
  ctl := w.extractLsb' 5 23

/-- Every element of R10 holds its reset value (R25, R130), the mode being `m`. -/
def HoldsResetValues (m : Mode) (s : State) : Prop :=
  (∀ i : Fin 8, s.R0_7[i.val] = 0) ∧ (∀ (b : Fin 2) (j : Fin 5), s.R8_12[b.val][j.val] = 0) ∧
  (∀ (b : Fin 6) (k : Fin 2), s.R13_14[b.val][k.val] = 0) ∧ s.PC = 0 ∧ (∀ k : Fin 5, s.SPSR[k.val] = 0) ∧
  s.CPSR.N = false ∧ s.CPSR.Z = false ∧ s.CPSR.C = false ∧ s.CPSR.V = false ∧ s.CPSR.ctl = 0 ∧ s.CPSR.mode = m

/-- The bits of a command word that its operation uses: `OP`, and the field that R41's last column gives the operation. -/
def usedBits (op : BitVec 5) : CmdWord :=
  if op = 0x01 then 0xF870
  else if 0x10 ≤ op.toNat ∧ op.toNat ≤ 0x13 then 0xFB80
  else if op = 0x14 ∨ op = 0x15 then 0xFF80
  else if op = 0x1E ∨ op = 0x1F then 0xF808
  else 0xF800

/-- The operations whose "reads" column in R47 names `A`. -/
def readsA : Instr → Bool
  | .unpack | .wrflags | .wrspsr | .mrgspsrf => true
  | .wrlow _ | .wrhigh _ | .wrarch _ | .wrsp | .wrlr | .wrpc => true
  | .add | .sub | .adc _ | .sbc _ => true
  | .curmode | .setmode _ | .bank1314 | .bank812 | .spsridx | .pack | .rdspsr | .restore => false
  | .rdlow _ | .rdhigh _ | .rdarch _ | .rdsp | .rdlr | .rdpc => false

/-- The operations whose "reads" column in R47 names `B`. -/
def readsB : Instr → Bool
  | .add | .sub | .adc _ | .sbc _ => true
  | .curmode | .setmode _ | .bank1314 | .bank812 | .spsridx | .pack | .unpack | .wrflags => false
  | .rdspsr | .wrspsr | .restore | .mrgspsrf => false
  | .rdlow _ | .wrlow _ | .rdhigh _ | .wrhigh _ | .rdarch _ | .wrarch _ => false
  | .rdsp | .wrsp | .rdlr | .wrlr | .rdpc | .wrpc => false

/-- The register that an operation writes, where it writes one (the "written by" column of R20). -/
def writtenReg : Instr → Option Nat
  | .wrlow idx => some (idx % 8)
  | .wrhigh idx => some (8 + idx % 8)
  | .wrarch reg => some (reg % 16)
  | .wrsp => some 13
  | .wrlr => some 14
  | .wrpc => some 15
  | .curmode | .setmode _ | .bank1314 | .bank812 | .spsridx | .pack | .unpack | .wrflags => none
  | .rdspsr | .wrspsr | .restore | .mrgspsrf => none
  | .rdlow _ | .rdhigh _ | .rdarch _ | .rdsp | .rdlr | .rdpc => none
  | .add | .sub | .adc _ | .sbc _ => none

/-- The slots that no register number reaches in the current mode. -/
def Hidden (s : State) (x : Slot) : Prop := ∀ r : Fin 16, slotOf s.CPSR.mode r ≠ x

/-- Two states that differ at most in the slots and SPSRs the current mode does not reach (R20, R22). -/
def AgreeWhereVisible (s s' : State) : Prop :=
  s'.CPSR = s.CPSR ∧ SameSurroundings s s' ∧ (∀ r : Fin 16, readReg s' r.val = readReg s r.val) ∧
  ∀ k, spsrIndex s.CPSR.mode = some k → s'.SPSR[k.val] = s.SPSR[k.val]

/-- A run in which nothing has stopped (R8): the safe runs. -/
def CleanRun (r : Run) : Prop := r.faults = [] ∧ r.refusals = []

end Sys2Proof.Machine
end

