-- ==== Sys2Proof/Certificates/Slice0/Obligations.lean ====
section
/-! DEFINITION. The statements made about the model; OBLIGATIONS.json names the rule or the section each rests on. -/

open Sys2Proof Sys2Proof.Machine

/-! ## Encoding (30_encoding.md) -/

/-- Decoding the canonical word of any well-formed operation gives the operation back (R41, R47, R52, R53). -/
def Obligations.DecodeOfEncodeGivesTheOperation : Prop :=
  ∀ i : Instr, i.WellFormed → decode (encode i) = .ok i

/-- Encoding what a word decodes to gives the word with every unused bit 0: no used bit is dropped (R42, R53). -/
def Obligations.EncodeOfDecodeClearsOnlyUnusedBits : Prop :=
  ∀ (w : CmdWord) (i : Instr), decode w = .ok i →
    i.WellFormed ∧ i.opcode = w.extractLsb' 11 5 ∧ encode i = w &&& usedBits (w.extractLsb' 11 5)

/-- R42: two command words that agree on `OP` and on the fields their operation uses have the same effect, outputs and
stop; only the recorded command word differs. No bit pattern of a field is an error, except R45's and R48's. -/
def Obligations.UnusedFieldsDoNotMatter : Prop :=
  ∀ (w w' : CmdWord) (a b : Word) (s : State) (rest : List Request),
    w &&& usedBits (w.extractLsb' 11 5) = w' &&& usedBits (w.extractLsb' 11 5) →
    let x := step { s with pending := .command ⟨w, a, b⟩ :: rest }
    let x' := step { s with pending := .command ⟨w', a, b⟩ :: rest }
    (∀ t, x = .next t → x' = .next { t with CMD := w' }) ∧
    (∀ c v, x = .fault (.invalidModeField c v) → x' = .fault (.invalidModeField w' v)) ∧
    (∀ r, x = .refused r → ∃ r', x' = .refused r') ∧
    (∀ r, x = .refused r →
      (0x0C ≤ (w.extractLsb' 11 5).toNat ∧ (w.extractLsb' 11 5).toNat ≤ 0x0F) ∨
      (w.extractLsb' 11 5 = 0x01 ∧ w.extractLsb' 4 3 = 7))

/-- R48: a reserved `OP` is refused, the elements of R10 stay, no output is driven and the run keeps the mark. -/
def Obligations.ReservedOpcodesAreRefused : Prop :=
  ∀ (r : Run) (c : Command) (rest : List Request), r.state.pending = .command c :: rest →
    0x0C ≤ (c.cmd.extractLsb' 11 5).toNat → (c.cmd.extractLsb' 11 5).toNat ≤ 0x0F →
    step r.state = .refused (.reservedOpcode c.cmd) ∧ SameBlock r.state (advance r).state ∧
    (advance r).state.Y = none ∧ (advance r).state.F = none ∧
    (advance r).refusals = r.refusals ++ [.reservedOpcode c.cmd] ∧ (advance r).faults = r.faults

/-- R45: the codes 0 to 6 name the modes in the source's order, and SETMODE with code 7 is refused with the state
unchanged. -/
def Obligations.ModeOperandNamesAModeOrIsRefused : Prop :=
  ∀ (r : Run) (c : Command) (rest : List Request), r.state.pending = .command c :: rest →
    c.cmd.extractLsb' 11 5 = 0x01 →
    (c.cmd.extractLsb' 4 3 = 7 →
      step r.state = .refused (.reservedModeCode c.cmd) ∧ SameBlock r.state (advance r).state ∧
      (advance r).refusals = r.refusals ++ [.reservedModeCode c.cmd]) ∧
    (∀ m, [Mode.User, .FIQ, .IRQ, .SVC, .ABT, .UND, .System][(c.cmd.extractLsb' 4 3).toNat]? = some m →
      ∃ t, step r.state = .next t ∧ t.CPSR = { r.state.CPSR with mode := m })

/-- Words written out bit by bit from R41 and R47, one family after another. -/
def Obligations.SampleWordsDecode : Prop :=
  decode 0b00001_0000_010_0_000#16 = .ok (.setmode 2) ∧
  decode 0b01011_0000_000_0_000#16 = .ok .mrgspsrf ∧
  decode 0b10010_1101_000_0_000#16 = .ok (.rdhigh 5) ∧
  decode 0b10101_1110_000_0_000#16 = .ok (.wrarch 14) ∧
  decode 0b11111_0000_000_1_000#16 = .ok (.sbc true)

/-! ## Steps and runs (00_scope.md, 70_reset_and_hazards.md) -/

/-- When the word presented next decodes to an operation, the step is that operation, run on the presented inputs with
the request taken from the pending ones (R9, R40, R52). -/
def Obligations.StepRunsTheDecodedCommand : Prop :=
  ∀ (s : State) (c : Command) (rest : List Request) (i : Instr),
    s.pending = .command c :: rest → decode c.cmd = .ok i →
    step s = exec i { s with CMD := c.cmd, A := c.a, B := c.b, pending := rest }

/-- The model's choice (log 2): with nothing pending a step changes no element and drives no output. -/
def Obligations.StepWithNothingPendingIsIdle : Prop :=
  ∀ s : State, s.pending = [] → step s = .next { s with Y := none, F := none }

/-- R37 and D1 ask a model to refuse two commands issued to one instance at once; the state stays. -/
def Obligations.TwoCommandsAtOnceAreRefused : Prop :=
  ∀ (r : Run) (c d : Command) (rest : List Request), r.state.pending = .concurrent c d :: rest →
    step r.state = .refused (.concurrentCommands c.cmd d.cmd) ∧ SameBlock r.state (advance r).state ∧
    (advance r).refusals = r.refusals ++ [.concurrentCommands c.cmd d.cmd]

/-- R116: exactly when a command ends in Fault or Refused, with what is recorded, and that it leaves the elements of
R10 unchanged. -/
def Obligations.CommandsStopExactlyWhereStated : Prop :=
  ∀ (r : Run) (c : Command) (rest : List Request), r.state.pending = .command c :: rest →
    r.state.invalidMPolicy = .fault →
    (∀ f, step r.state = .fault f ↔
      (c.cmd.extractLsb' 11 5 = 0x06 ∧ ¬ ValidModeField c.a ∧ f = .invalidModeField c.cmd c.a) ∨
      (c.cmd.extractLsb' 11 5 = 0x0A ∧ ∃ k, (r.state.CPSR.mode, k) ∈ spsrSlots ∧
        ¬ ValidModeField r.state.SPSR[k.val] ∧ f = .invalidModeField c.cmd r.state.SPSR[k.val])) ∧
    (∀ q, step r.state = .refused q ↔
      (0x0C ≤ (c.cmd.extractLsb' 11 5).toNat ∧ (c.cmd.extractLsb' 11 5).toNat ≤ 0x0F ∧ q = .reservedOpcode c.cmd) ∨
      (c.cmd.extractLsb' 11 5 = 0x01 ∧ c.cmd.extractLsb' 4 3 = 7 ∧ q = .reservedModeCode c.cmd)) ∧
    (∀ f, step r.state = .fault f →
      SameBlock r.state (advance r).state ∧ (advance r).faults = r.faults ++ [f]) ∧
    (∀ q, step r.state = .refused q →
      SameBlock r.state (advance r).state ∧ (advance r).refusals = r.refusals ++ [q])

/-- R130, R25 and R131: a fresh instance, whatever its `RESET_MODE` and policy, and an instance whose RESET input is
asserted hold every reset value, the mode being the instance's `RESET_MODE`; RESET drives no output and clears no mark. -/
def Obligations.ResetMakesAFreshInstance : Prop :=
  (∀ (m : Mode) (p : InvalidMPolicy), HoldsResetValues m (State.resetWith m p)) ∧
  (∀ (r : Run) (rest : List Request), r.state.pending = .reset :: rest → ∃ t,
    step r.state = .next t ∧ HoldsResetValues r.state.resetMode t ∧ t.Y = none ∧ t.F = none ∧
    (advance r).faults = r.faults ∧ (advance r).refusals = r.refusals)

/-- The status word right after reset is the mode field of `RESET_MODE`, whichever mode that is (an inference R25 marks). -/
def Obligations.StatusWordAfterResetIsTheModeField : Prop :=
  ∀ (m : Mode) (p : InvalidMPolicy) (f : BitVec 5), (f, m) ∈ modeFields →
    exec .pack (State.resetWith m p) = .next { State.resetWith m p with Y := some (f.setWidth 32) }

/-- The marks of a run are never cleared, RESET or not (R8, R130). -/
def Obligations.MarksAreNeverCleared : Prop :=
  ∀ (k : Nat) (r : Run), r.faults <+: (advanceBy k r).faults ∧ r.refusals <+: (advanceBy k r).refusals

/-- The model's choice, under R9 and R135: each step serves the first pending request (log 1), RESET leaves the other
pending requests (log 3) and a request that stopped is gone in a run that goes on (log 6); so a run of as many steps as
there are pending requests leaves none. R9 and R135 themselves say that commands are applied one at a time, in order, and
that every issued command completes. -/
def Obligations.EveryRequestIsServedInOrder : Prop :=
  ∀ r : Run, (advance r).state.pending = r.state.pending.tail ∧
    (advanceBy r.state.pending.length r).state.pending = []

/-- No step changes the parameters an instance is built with (R5). -/
def Obligations.StepKeepsTheParameters : Prop :=
  ∀ s t : State, step s = .next t → t.resetMode = s.resetMode ∧ t.invalidMPolicy = s.invalidMPolicy

/-- Every step keeps the outputs in agreement: `F` is driven only beside a `Y` whose sign and zero it reports (R50, R101). -/
def Obligations.StepKeepsOutputsInAgreement : Prop :=
  ∀ s t : State, OutputsAgree s → step s = .next t → OutputsAgree t

/-- The outputs agree in a fresh instance. -/
def Obligations.OutputsAgreeAfterReset : Prop := ∀ (m : Mode) (p : InvalidMPolicy), OutputsAgree (State.resetWith m p)

/-- `A` and `B` are read only by the operations whose "reads" column names them: of any other operation, the outcome
does not depend on them (R47, R52). -/
def Obligations.UnreadOperandsDoNotMatter : Prop :=
  ∀ (i : Instr) (s : State) (v : Word),
    (readsA i = false →
      (∀ t, exec i s = .next t → exec i { s with A := v } = .next { t with A := v }) ∧
      (∀ f, exec i s = .fault f → exec i { s with A := v } = .fault f) ∧
      (∀ q, exec i s = .refused q → exec i { s with A := v } = .refused q)) ∧
    (readsB i = false →
      (∀ t, exec i s = .next t → exec i { s with B := v } = .next { t with B := v }) ∧
      (∀ f, exec i s = .fault f → exec i { s with B := v } = .fault f) ∧
      (∀ q, exec i s = .refused q → exec i { s with B := v } = .refused q))

/-! ## ModeState (40_mode_state.md) -/

/-- R55, R57, R58, R59: the mode queries answer the columns of the mode table and change nothing but the outputs. -/
def Obligations.ModeQueriesAnswerTheModeTable : Prop :=
  ∀ s : State,
    exec .curmode s = .next { s with F := none, Y := some (match s.CPSR.mode with
      | .User => 0 | .FIQ => 1 | .IRQ => 2 | .SVC => 3 | .ABT => 4 | .UND => 5 | .System => 6) } ∧
    exec .bank1314 s = .next { s with F := none, Y := some (match s.CPSR.mode with
      | .User => 0 | .FIQ => 1 | .IRQ => 2 | .SVC => 3 | .ABT => 4 | .UND => 5 | .System => 0) } ∧
    exec .bank812 s = .next { s with F := none, Y := some (if s.CPSR.mode = .FIQ then 1 else 0) } ∧
    exec .spsridx s = .next { s with F := none, Y := some (match s.CPSR.mode with
      | .User => 7 | .FIQ => 0 | .IRQ => 1 | .SVC => 2 | .ABT => 3 | .UND => 4 | .System => 7) }

/-- R56: SETMODE writes the mode its code names and nothing else, from any mode; the code 7 is refused. -/
def Obligations.SetmodeWritesOnlyTheMode : Prop :=
  ∀ (s : State) (md : BitVec 3),
    (md = 7 → exec (.setmode md) s = .refused (.reservedModeCode s.CMD)) ∧
    (∀ m, [Mode.User, .FIQ, .IRQ, .SVC, .ABT, .UND, .System][md.toNat]? = some m →
      exec (.setmode md) s = .next { s with CPSR := { s.CPSR with mode := m }, Y := none, F := none })

/-- R60: PACK puts the flags at bits 31 to 28, `ctl` at bits 27 to 5 and the mode field at bits 4 to 0, and changes
nothing but the outputs. -/
def Obligations.PackLaysOutTheStatusWord : Prop :=
  ∀ s : State, ∃ w : Word,
    exec .pack s = .next { s with Y := some w, F := none } ∧
    w.getLsbD 31 = s.CPSR.N ∧ w.getLsbD 30 = s.CPSR.Z ∧ w.getLsbD 29 = s.CPSR.C ∧ w.getLsbD 28 = s.CPSR.V ∧
    w.extractLsb' 5 23 = s.CPSR.ctl ∧ (w.extractLsb' 0 5, s.CPSR.mode) ∈ modeFields

/-- R61: UNPACK of a word whose mode field names a mode writes every field of the current status and nothing else; of
any other word it faults (the policy `fault` is the spec's default). -/
def Obligations.UnpackInstallsTheWordOrFaults : Prop :=
  ∀ s : State,
    (∀ m, (s.A.extractLsb' 0 5, m) ∈ modeFields →
      exec .unpack s = .next { s with CPSR := statusOf s.A m, Y := none, F := none }) ∧
    (¬ ValidModeField s.A → s.invalidMPolicy = .fault →
      exec .unpack s = .fault (.invalidModeField s.CMD s.A))

/-- The other value of `INVALID_M_POLICY` (D7): UNPACK and RESTORE install the flags and `ctl` and leave the mode. -/
def Obligations.KeepModePolicyLeavesTheMode : Prop :=
  ∀ s : State, s.invalidMPolicy = .keepMode →
    (¬ ValidModeField s.A →
      exec .unpack s = .next { s with CPSR := statusOf s.A s.CPSR.mode, Y := none, F := none }) ∧
    (∀ k, (s.CPSR.mode, k) ∈ spsrSlots → ¬ ValidModeField s.SPSR[k.val] →
      exec .restore s = .next { s with CPSR := statusOf s.SPSR[k.val] s.CPSR.mode, Y := none, F := none })

/-- UNPACK of what PACK answered changes no element, and PACK after UNPACK of a word whose mode field names a mode
answers the word (R63; its converse is an inference the spec marks). -/
def Obligations.PackAndUnpackRoundTrip : Prop :=
  (∀ (s t : State) (w : Word), exec .pack s = .next t → t.Y = some w →
    exec .unpack { s with A := w } = .next { s with A := w, Y := none, F := none }) ∧
  (∀ s : State, ValidModeField s.A → ∃ t, exec .unpack s = .next t ∧
    exec .pack t = .next { t with Y := some s.A })

/-- R64: WRFLAGS writes the four flags from `A[31:28]` and nothing else. -/
def Obligations.WrflagsWritesOnlyTheFlags : Prop :=
  ∀ s : State, ∃ t, exec .wrflags s = .next t ∧
    t = { s with Y := none, F := none, CPSR := { s.CPSR with
      N := s.A.getLsbD 31, Z := s.A.getLsbD 30, C := s.A.getLsbD 29, V := s.A.getLsbD 28 } }

/-- WRFLAGS does what UNPACK of the current status word with its top four bits replaced does (an inference R64 marks). -/
def Obligations.WrflagsIsUnpackOfTheMergedWord : Prop :=
  ∀ (s t : State) (w : Word), exec .pack s = .next t → t.Y = some w →
    ∃ u, exec .wrflags s = .next u ∧
      exec .unpack { s with A := (s.A &&& 0xF0000000#32) ||| (w &&& 0x0FFFFFFF#32) } =
        .next { u with A := (s.A &&& 0xF0000000#32) ||| (w &&& 0x0FFFFFFF#32) }

/-- A mode change moves nothing: every register slot keeps its value, each register number now reaches the new mode's
slot, and the saved-status port reaches the new mode's slot or the current status word (R65, an inference it marks). -/
def Obligations.ModeChangeOnlyRedirects : Prop :=
  ∀ (i : Instr) (s t : State), ((∃ md, i = .setmode md) ∨ i = .unpack ∨ i = .restore) → exec i s = .next t →
    SameRegisters s t ∧ t.SPSR = s.SPSR ∧
    (∀ r, readReg t r = regIn s t.CPSR.mode r) ∧ (∀ m r, regIn t m r = regIn s m r) ∧
    (∀ k, (t.CPSR.mode, k) ∈ spsrSlots → exec .rdspsr t = .next { t with Y := some s.SPSR[k.val] }) ∧
    (userOrSystem t.CPSR.mode → exec .rdspsr t = exec .pack t)

/-- The block checks no privilege: an operation that completes in some mode completes in User mode too (R123). -/
def Obligations.NoOperationIsStoppedForUserMode : Prop :=
  ∀ (i : Instr) (s : State) (m : Mode), (∃ t, exec i (setMode m s) = .next t) → ∃ t, exec i (setMode .User s) = .next t

/-! ## Saved status (41_saved_status.md) -/

/-- R70: RDSPSR answers the slot of a privileged mode verbatim, and in User and System mode what PACK answers. -/
def Obligations.RdspsrReadsTheSlotOrTheStatus : Prop :=
  ∀ s : State,
    (∀ k, (s.CPSR.mode, k) ∈ spsrSlots → exec .rdspsr s = .next { s with Y := some s.SPSR[k.val], F := none }) ∧
    (userOrSystem s.CPSR.mode → ∃ w, exec .rdspsr s = .next { s with Y := some w, F := none } ∧
      exec .pack s = .next { s with Y := some w, F := none })

/-- R71: WRSPSR stores `A` in the slot of a privileged mode, and has no effect in User and System mode. -/
def Obligations.WrspsrWritesTheSlotOrNothing : Prop :=
  ∀ s : State,
    (∀ k, (s.CPSR.mode, k) ∈ spsrSlots →
      exec .wrspsr s = .next { s with SPSR := s.SPSR.set k.val s.A, Y := none, F := none }) ∧
    (userOrSystem s.CPSR.mode → exec .wrspsr s = .next { s with Y := none, F := none })

/-- R72: RESTORE installs the saved word of a privileged mode, whose slot stays; faults where its mode field names no
mode (the policy `fault` is the spec's default); and has no effect in User and System mode. -/
def Obligations.RestoreInstallsTheSavedWordOrNothing : Prop :=
  ∀ s : State,
    (∀ k, (s.CPSR.mode, k) ∈ spsrSlots →
      (∀ m, (s.SPSR[k.val].extractLsb' 0 5, m) ∈ modeFields →
        exec .restore s = .next { s with CPSR := statusOf s.SPSR[k.val] m, Y := none, F := none }) ∧
      (¬ ValidModeField s.SPSR[k.val] → s.invalidMPolicy = .fault →
        exec .restore s = .fault (.invalidModeField s.CMD s.SPSR[k.val]))) ∧
    (userOrSystem s.CPSR.mode → exec .restore s = .next { s with Y := none, F := none })

/-- R73: MRGSPSRF replaces bits 31 to 28 of the slot of a privileged mode by `A`'s and keeps bits 27 to 0, and has no
effect in User and System mode. -/
def Obligations.MrgspsrfReplacesOnlyTheTopFourBits : Prop :=
  ∀ s : State,
    (∀ k, (s.CPSR.mode, k) ∈ spsrSlots → ∃ w : Word,
      exec .mrgspsrf s = .next { s with SPSR := s.SPSR.set k.val w, Y := none, F := none } ∧
      w.extractLsb' 28 4 = s.A.extractLsb' 28 4 ∧ w.extractLsb' 0 28 = s.SPSR[k.val].extractLsb' 0 28) ∧
    (userOrSystem s.CPSR.mode → exec .mrgspsrf s = .next { s with Y := none, F := none })

/-- R75: the SPSR slots change only by WRSPSR and MRGSPSRF, and only in the current mode's slot. -/
def Obligations.SavedStatusChangesOnlyByItsWriters : Prop :=
  ∀ (i : Instr) (s t : State), exec i s = .next t →
    (i ≠ .wrspsr → i ≠ .mrgspsrf → t.SPSR = s.SPSR) ∧
    (∀ k : Fin 5, (s.CPSR.mode, k) ∉ spsrSlots → t.SPSR[k.val] = s.SPSR[k.val])

/-! ## Register file (42_register_file.md) -/

/-- R82, R83: the low port reads and writes R0 to R7, by the index modulo 8, unbanked. -/
def Obligations.LowPortIsUnbanked : Prop :=
  ∀ (s : State) (n : Nat) (i : Fin 8), n % 8 = i.val →
    exec (.rdlow n) s = .next { s with Y := some s.R0_7[i.val], F := none } ∧
    exec (.wrlow n) s = .next { s with R0_7 := s.R0_7.set i.val s.A, Y := none, F := none }

/-- R84, R85: the high port is register 8 + index: indices 0 to 4 through the two-slot bank, 5 and 6 through the
six-slot bank, 7 the PC. -/
def Obligations.HighPortUsesTheBankOfTheRegister : Prop :=
  ∀ (s : State) (n : Nat) (b2 : Fin 2) (b6 : Fin 6), b2 = bank812 s.CPSR.mode → b6 = bank1314 s.CPSR.mode →
    (∀ j : Fin 5, n % 8 = j.val →
      exec (.rdhigh n) s = .next { s with Y := some s.R8_12[b2.val][j.val], F := none } ∧
      exec (.wrhigh n) s = .next { s with
        R8_12 := s.R8_12.set b2.val (s.R8_12[b2.val].set j.val s.A), Y := none, F := none }) ∧
    (∀ k : Fin 2, n % 8 = 5 + k.val →
      exec (.rdhigh n) s = .next { s with Y := some s.R13_14[b6.val][k.val], F := none } ∧
      exec (.wrhigh n) s = .next { s with
        R13_14 := s.R13_14.set b6.val (s.R13_14[b6.val].set k.val s.A), Y := none, F := none }) ∧
    (n % 8 = 7 →
      exec (.rdhigh n) s = .next { s with Y := some s.PC, F := none } ∧
      exec (.wrhigh n) s = .next { s with PC := s.A, Y := none, F := none })

/-- R86, R87: the architectural port reads and writes the register of its selector modulo 16, through the slot map. -/
def Obligations.ArchPortDispatchesByRegister : Prop :=
  ∀ (s : State) (n : Nat) (b2 : Fin 2) (b6 : Fin 6), b2 = bank812 s.CPSR.mode → b6 = bank1314 s.CPSR.mode →
    (∀ i : Fin 8, n % 16 = i.val →
      exec (.rdarch n) s = .next { s with Y := some s.R0_7[i.val], F := none } ∧
      exec (.wrarch n) s = .next { s with R0_7 := s.R0_7.set i.val s.A, Y := none, F := none }) ∧
    (∀ j : Fin 5, n % 16 = 8 + j.val →
      exec (.rdarch n) s = .next { s with Y := some s.R8_12[b2.val][j.val], F := none } ∧
      exec (.wrarch n) s = .next { s with
        R8_12 := s.R8_12.set b2.val (s.R8_12[b2.val].set j.val s.A), Y := none, F := none }) ∧
    (∀ k : Fin 2, n % 16 = 13 + k.val →
      exec (.rdarch n) s = .next { s with Y := some s.R13_14[b6.val][k.val], F := none } ∧
      exec (.wrarch n) s = .next { s with
        R13_14 := s.R13_14.set b6.val (s.R13_14[b6.val].set k.val s.A), Y := none, F := none }) ∧
    (n % 16 = 15 →
      exec (.rdarch n) s = .next { s with Y := some s.PC, F := none } ∧
      exec (.wrarch n) s = .next { s with PC := s.A, Y := none, F := none })

/-- R88 to R93: the named ports are SP and LR through the six-slot bank, and the PC, stored and read as it is. -/
def Obligations.NamedPortsReachSpLrAndPc : Prop :=
  ∀ (s : State) (b : Fin 6), b = bank1314 s.CPSR.mode →
    exec .rdsp s = .next { s with Y := some s.R13_14[b.val][0], F := none } ∧
    exec .wrsp s = .next { s with
      R13_14 := s.R13_14.set b.val (s.R13_14[b.val].set 0 s.A), Y := none, F := none } ∧
    exec .rdlr s = .next { s with Y := some s.R13_14[b.val][1], F := none } ∧
    exec .wrlr s = .next { s with
      R13_14 := s.R13_14.set b.val (s.R13_14[b.val].set 1 s.A), Y := none, F := none } ∧
    exec .rdpc s = .next { s with Y := some s.PC, F := none } ∧
    exec .wrpc s = .next { s with PC := s.A, Y := none, F := none }

/-- R21: which modes reach the same slot by the same register number. -/
def Obligations.ModesShareSlotsAsStated : Prop :=
  ∀ (m m' : Mode) (r : Fin 16), slotOf m r = slotOf m' r ↔ sharesSlot m m' r.val = true

/-- A register write in the current mode is seen in exactly the modes that share its slot, and no other register changes
in any mode (R94; its converse is an inference the spec marks). -/
def Obligations.BankedWritesAreIsolated : Prop :=
  ∀ (s : State) (r : Fin 16), ∃ t, exec (.wrarch r.val) s = .next t ∧
    ∀ (m : Mode) (q : Fin 16),
      regIn t m q.val = if q = r ∧ sharesSlot s.CPSR.mode m r.val then s.A else regIn s m q.val

/-- A read in the next command sees the write before it where the two numbers name the same register, and the old value
where they do not (R95, R133). -/
def Obligations.ReadAfterWriteSeesTheWrite : Prop :=
  ∀ (s : State) (n k : Nat) (v : Word), n < 16 → k < 16 → ∃ t,
    Host.Core.run core 2 { s with pending := [asm (.wrarch n) v 0, asm (.rdarch k) 0 0] } = .next t ∧
    t.Y = some (if n = k then v else readReg s k)

/-- What each operation may write (R20, R22): a register slot only where the operation writes that register, in the
current mode's slot, and then `A`; the mode, the flags and `ctl` only where R20 lists the operation; an SPSR only by
WRSPSR and MRGSPSRF, of which the second writes bits 31 to 28 alone, and only the current mode's; never a slot or an
SPSR that the current mode does not reach; and never the inputs, the pending requests or the parameters. -/
def Obligations.OnlyListedOperationsWrite : Prop :=
  ∀ (i : Instr) (s t : State), exec i s = .next t →
    (∀ r, writtenReg i = some r → readSlot t (slotOf s.CPSR.mode (archSel r)) = s.A) ∧
    (∀ x, (∀ r, writtenReg i = some r → x ≠ slotOf s.CPSR.mode (archSel r)) → readSlot t x = readSlot s x) ∧
    (∀ x, Hidden s x → readSlot t x = readSlot s x) ∧
    (t.CPSR.mode = s.CPSR.mode ∨ (∃ md, i = .setmode md) ∨ i = .unpack ∨ i = .restore) ∧
    (t.CPSR.ctl = s.CPSR.ctl ∨ i = .unpack ∨ i = .restore) ∧
    ((t.CPSR.N = s.CPSR.N ∧ t.CPSR.Z = s.CPSR.Z ∧ t.CPSR.C = s.CPSR.C ∧ t.CPSR.V = s.CPSR.V) ∨
      i = .wrflags ∨ i = .unpack ∨ i = .restore) ∧
    (t.SPSR = s.SPSR ∨ i = .wrspsr ∨ i = .mrgspsrf) ∧
    (∀ k : Fin 5, (s.CPSR.mode, k) ∉ spsrSlots → t.SPSR[k.val] = s.SPSR[k.val]) ∧
    (i = .mrgspsrf → ∀ k : Fin 5, t.SPSR[k.val].extractLsb' 0 28 = s.SPSR[k.val].extractLsb' 0 28) ∧
    SameSurroundings s t

/-- Nothing reads the slots and saved words that the current mode does not reach (R20, R22): two states that agree
everywhere else give the same outputs and the same status, and still agree there. -/
def Obligations.HiddenBanksAreUnobservable : Prop :=
  ∀ (i : Instr) (s s' t : State), AgreeWhereVisible s s' → exec i s = .next t →
    ∃ t', exec i s' = .next t' ∧ t'.Y = t.Y ∧ t'.F = t.F ∧ t'.CPSR = t.CPSR ∧
      (∀ r : Fin 16, readReg (setMode s.CPSR.mode t') r.val = readReg (setMode s.CPSR.mode t) r.val) ∧
      (∀ k, spsrIndex s.CPSR.mode = some k → t'.SPSR[k.val] = t.SPSR[k.val])

/-! ## Flag ALU (43_flag_alu.md) -/

/-- R102: ADD's result and flags; nothing but the outputs changes. -/
def Obligations.AddGivesSumAndFlags : Prop :=
  ∀ s : State, ∃ (r : Word) (f : BitVec 4),
    exec .add s = .next { s with Y := some r, F := some f } ∧
    r.toNat = (s.A.toNat + s.B.toNat) % 2 ^ 32 ∧
    f.getLsbD 3 = r.getLsbD 31 ∧ (f.getLsbD 2 = true ↔ r = 0) ∧
    (f.getLsbD 1 = true ↔ 2 ^ 32 - 1 < s.A.toNat + s.B.toNat) ∧
    (f.getLsbD 0 = true ↔ s.A.getLsbD 31 = s.B.getLsbD 31 ∧ r.getLsbD 31 ≠ s.A.getLsbD 31)

/-- R103: SUB's result and flags, C meaning that no borrow occurred; nothing but the outputs changes. -/
def Obligations.SubGivesDifferenceAndFlags : Prop :=
  ∀ s : State, ∃ (r : Word) (f : BitVec 4),
    exec .sub s = .next { s with Y := some r, F := some f } ∧
    (r.toNat : Int) = ((s.A.toNat : Int) - s.B.toNat) % 2 ^ 32 ∧
    f.getLsbD 3 = r.getLsbD 31 ∧ (f.getLsbD 2 = true ↔ r = 0) ∧
    (f.getLsbD 1 = true ↔ s.B.toNat ≤ s.A.toNat) ∧
    (f.getLsbD 0 = true ↔ s.A.getLsbD 31 ≠ s.B.getLsbD 31 ∧ r.getLsbD 31 ≠ s.A.getLsbD 31)

/-- R104: ADC's result and flags over the three-term sum; nothing but the outputs changes. -/
def Obligations.AdcGivesSumAndFlags : Prop :=
  ∀ (s : State) (ci : Bool), ∃ (r : Word) (f : BitVec 4),
    exec (.adc ci) s = .next { s with Y := some r, F := some f } ∧
    r.toNat = (s.A.toNat + s.B.toNat + ci.toNat) % 2 ^ 32 ∧
    f.getLsbD 3 = r.getLsbD 31 ∧ (f.getLsbD 2 = true ↔ r = 0) ∧
    (f.getLsbD 1 = true ↔ 2 ^ 32 - 1 < s.A.toNat + s.B.toNat + ci.toNat) ∧
    (f.getLsbD 0 = true ↔
      ¬ (-2 ^ 31 ≤ s.A.toInt + s.B.toInt + ci.toNat ∧ s.A.toInt + s.B.toInt + ci.toNat ≤ 2 ^ 31 - 1))

/-- R105: SBC's result and flags, with NOT borrow-in; nothing but the outputs changes. -/
def Obligations.SbcGivesDifferenceAndFlags : Prop :=
  ∀ (s : State) (ci : Bool), ∃ (r : Word) (f : BitVec 4),
    exec (.sbc ci) s = .next { s with Y := some r, F := some f } ∧
    (r.toNat : Int) = ((s.A.toNat : Int) - s.B.toNat - (1 - ci.toNat)) % 2 ^ 32 ∧
    f.getLsbD 3 = r.getLsbD 31 ∧ (f.getLsbD 2 = true ↔ r = 0) ∧
    (f.getLsbD 1 = true ↔ 0 ≤ (s.A.toNat : Int) - s.B.toNat - (1 - ci.toNat)) ∧
    (f.getLsbD 0 = true ↔ s.A.getLsbD 31 ≠ s.B.getLsbD 31 ∧ r.getLsbD 31 ≠ s.A.getLsbD 31)

/-- V is signed overflow in all four operations: the exact signed result lies outside the 32-bit range; and ADC's V has
the sign form of ADD's too (inferences R104 and R105 mark). -/
def Obligations.OverflowFlagIsSignedOverflow : Prop :=
  ∀ (s : State) (ci : Bool),
    (∃ r f, exec .add s = .next { s with Y := some r, F := some f } ∧ (f.getLsbD 0 = true ↔
      ¬ (-2 ^ 31 ≤ s.A.toInt + s.B.toInt ∧ s.A.toInt + s.B.toInt ≤ 2 ^ 31 - 1))) ∧
    (∃ r f, exec .sub s = .next { s with Y := some r, F := some f } ∧ (f.getLsbD 0 = true ↔
      ¬ (-2 ^ 31 ≤ s.A.toInt - s.B.toInt ∧ s.A.toInt - s.B.toInt ≤ 2 ^ 31 - 1))) ∧
    (∃ r f, exec (.adc ci) s = .next { s with Y := some r, F := some f } ∧ (f.getLsbD 0 = true ↔
      s.A.getLsbD 31 = s.B.getLsbD 31 ∧ r.getLsbD 31 ≠ s.A.getLsbD 31)) ∧
    (∃ r f, exec (.sbc ci) s = .next { s with Y := some r, F := some f } ∧ (f.getLsbD 0 = true ↔
      ¬ (-2 ^ 31 ≤ s.A.toInt - s.B.toInt - (1 - ci.toNat) ∧
        s.A.toInt - s.B.toInt - (1 - ci.toNat) ≤ 2 ^ 31 - 1)))

/-- R100: the ALU is pure: two states with the same operands give the same outputs, whatever else they hold, and each
stays as it is but for the outputs. -/
def Obligations.AluIsPure : Prop :=
  ∀ (i : Instr) (s s' : State), (i = .add ∨ i = .sub ∨ (∃ ci, i = .adc ci) ∨ ∃ ci, i = .sbc ci) →
    s'.A = s.A → s'.B = s.B → ∃ r f,
      exec i s = .next { s with Y := some r, F := some f } ∧ exec i s' = .next { s' with Y := some r, F := some f }

/-- The source's second wording of SUB's overflow, with its zero boundary, says the same on every input (R106, an
inference it marks). -/
def Obligations.SubOverflowZeroBoundary : Prop :=
  ∀ (s : State), ∃ (r : Word) (f : BitVec 4), exec .sub s = .next { s with Y := some r, F := some f } ∧
    (f.getLsbD 0 = true ↔
      (0 ≤ s.A.toInt ∧ s.B.toInt ≤ 0 ∧ r.toInt < 0) ∨ (s.A.toInt < 0 ∧ 0 < s.B.toInt ∧ 0 ≤ r.toInt))

/-- The identities between the four operations, results and flags (R107, an inference it marks). -/
def Obligations.AluIdentities : Prop :=
  ∀ s : State,
    exec (.adc false) s = exec .add s ∧ exec (.sbc true) s = exec .sub s ∧
    (∀ ci, ∃ r f, exec (.sbc ci) s = .next { s with Y := some r, F := some f } ∧
      exec (.adc ci) { s with B := ~~~s.B } = .next { s with B := ~~~s.B, Y := some r, F := some f }) ∧
    (∃ r f, exec .sub s = .next { s with Y := some r, F := some f } ∧
      exec (.adc true) { s with B := ~~~s.B } = .next { s with B := ~~~s.B, Y := some r, F := some f })

/-- The pseudo-instruction SETFLAGS puts an ALU operation's flags in the current status and changes no other element
(R53, R100). -/
def Obligations.SetflagsPutsTheAluFlagsInTheStatus : Prop :=
  ∀ (i : Instr) (s : State) (a b : Word),
    (i = .add ∨ i = .sub ∨ (∃ ci, i = .adc ci) ∨ ∃ ci, i = .sbc ci) → ∃ (r : Word) (f : BitVec 4) (t : State),
      exec i { s with A := a, B := b } = .next { s with A := a, B := b, Y := some r, F := some f } ∧
      Host.Core.run core 2 { s with pending := setflagsRequests i a b f } = .next t ∧
      t.CPSR = { s.CPSR with N := f.getLsbD 3, Z := f.getLsbD 2, C := f.getLsbD 1, V := f.getLsbD 0 } ∧
      SameRegisters s t ∧ t.SPSR = s.SPSR

/-! ## Exceptions and boot (60_exceptions.md, 70_reset_and_hazards.md) -/

/-- R118: the five commands of exception entry, from any mode into a privileged one, whatever the vector and the return
address: what they leave, and that they change nothing else. A target of User or System saves no status word. -/
def Obligations.ExceptionEntrySavesAndVectors : Prop :=
  ∀ (s : State) (target : Mode) (ret vec : Word) (rest : List Request), ∃ w,
    exec .pack s = .next { s with Y := some w, F := none } ∧
    ∀ b : Fin 6, b = bank1314 target →
      let s' := { s with
        CPSR := { s.CPSR with mode := target }, R13_14 := s.R13_14.set b.val (s.R13_14[b.val].set 1 ret),
        PC := vec, Y := none, F := none, CMD := encode .wrpc, A := vec, B := 0, pending := rest }
      (∀ k, (target, k) ∈ spsrSlots →
        Host.Core.run core 5 { s with pending := enterRequests target w ret vec ++ rest } =
          .next { s' with SPSR := s.SPSR.set k.val w }) ∧
      (userOrSystem target → Host.Core.run core 5 { s with pending := enterRequests target w ret vec ++ rest } = .next s')

/-- R119: the three commands of exception return: what they leave, and that they change nothing else; where the saved
word's mode field names no mode the second faults; from User or System mode only the PC changes. -/
def Obligations.ExceptionReturnRestoresAndResumes : Prop :=
  ∀ (s : State) (adj : Word) (rest : List Request), ∃ l,
    exec .rdlr s = .next { s with Y := some l, F := none } ∧
    let x := Host.Core.run core 3 { s with pending := leaveRequests l adj ++ rest }
    let s' := { s with PC := l - adj, Y := none, F := none, CMD := encode .wrpc, A := l - adj, B := 0, pending := rest }
    (∀ k, (s.CPSR.mode, k) ∈ spsrSlots →
      (∀ m, (s.SPSR[k.val].extractLsb' 0 5, m) ∈ modeFields →
        x = .next { s' with CPSR := statusOf s.SPSR[k.val] m }) ∧
      (¬ ValidModeField s.SPSR[k.val] → s.invalidMPolicy = .fault →
        x = .fault (.invalidModeField (encode .restore) s.SPSR[k.val]))) ∧
    (userOrSystem s.CPSR.mode → x = .next s')

/-- Entry and then return give the interrupted status back, and change only the entered mode's LR and SPSR and the PC
(R118, R119). -/
def Obligations.EntryThenReturnGivesTheStatusBack : Prop :=
  ∀ (s : State) (target : Mode) (k : Fin 5) (b : Fin 6) (ret vec adj : Word),
    (target, k) ∈ spsrSlots → b = bank1314 target → ∃ w t,
      exec .pack s = .next { s with Y := some w, F := none } ∧
      Host.Core.run core 8 { s with pending := enterRequests target w ret vec ++ leaveRequests ret adj } = .next t ∧
      t.CPSR = s.CPSR ∧ t.PC = ret - adj ∧ t.R0_7 = s.R0_7 ∧ t.R8_12 = s.R8_12 ∧
      t.R13_14 = s.R13_14.set b.val (s.R13_14[b.val].set 1 ret) ∧ t.SPSR = s.SPSR.set k.val w

/-- An entry into a second privileged mode keeps the first one's saved word and LR, and its return gives the first
handler's status back (R121). -/
def Obligations.NestedEntryKeepsTheOuterSavedState : Prop :=
  ∀ (s : State) (m₁ m₂ : Mode) (k₁ k₂ : Fin 5) (ret₁ vec₁ ret₂ vec₂ adj : Word),
    (m₁, k₁) ∈ spsrSlots → (m₂, k₂) ∈ spsrSlots → m₁ ≠ m₂ → ∃ w₁ w₂ t,
      exec .pack s = .next { s with Y := some w₁, F := none } ∧
      exec .pack (setMode m₁ s) = .next { setMode m₁ s with Y := some w₂, F := none } ∧
      Host.Core.run core 13 (s.withPending
        (enterRequests m₁ w₁ ret₁ vec₁ ++ enterRequests m₂ w₂ ret₂ vec₂ ++ leaveRequests ret₂ adj)) = .next t ∧
      t.CPSR = { s.CPSR with mode := m₁ } ∧ t.PC = ret₂ - adj ∧
      regIn t m₁ 14 = ret₁ ∧ t.SPSR[k₁.val] = w₁ ∧ regIn t m₂ 14 = ret₂ ∧ t.SPSR[k₂.val] = w₂

/-- The model's one-operation entry and return are what the driver's sequences do to the elements of R10. -/
def Obligations.EntryAndReturnOperationsAreTheSequences : Prop :=
  (∀ (s t : State) (target : Mode) (ret vec : Word),
    Host.Core.run core 5 { s with pending := enterRequests target (packStatus s.CPSR) ret vec } = .next t →
    SameBlock t (enterException target ret vec s)) ∧
  (∀ (s t : State) (adj : Word),
    Host.Core.run core 3 { s with pending := leaveRequests (readReg s 14) adj } = .next t →
    ∃ u, returnFromException adj s = .next u ∧ SameBlock t u)

/-- The boot sequence with UNPACK at its steps 1 and 3 (R132; the form is the model's choice, log 16) completes from any
state: the running status is the wanted word's, each listed mode's stack pointer is the one given where no two entries
share a slot, and the PC is the entry point. `BootMayUseSetmode` speaks of the other forms. -/
def Obligations.BootSetsStatusStacksAndEntry : Prop :=
  ∀ (s : State) (w0 entry : Word) (m0 : Mode) (sps : List (Mode × Word)),
    (w0.extractLsb' 0 5, m0) ∈ modeFields → sps.Pairwise (fun p q => bank1314 p.1 ≠ bank1314 q.1) → ∃ t,
      Host.Core.run core (bootRequests w0 sps entry).length { s with pending := bootRequests w0 sps entry } = .next t ∧
      t.CPSR = statusOf w0 m0 ∧ t.PC = entry ∧ t.SPSR = s.SPSR ∧ t.R0_7 = s.R0_7 ∧ t.R8_12 = s.R8_12 ∧
      ∀ p ∈ sps, regIn t p.1 13 = p.2

/-- The boot sequence with SETMODE at its step 1, at its step 3 or at both (R132) completes from any state with the same
stack pointers and entry point, in the mode `m0`: the flags and `ctl` are those of `w0` where UNPACK is one of the two
steps, and are left as they were where it is neither. -/
def Obligations.BootMayUseSetmode : Prop :=
  ∀ (s : State) (w0 entry : Word) (m0 : Mode) (sps : List (Mode × Word)) (select again : Request) (c : Cpsr),
    (w0.extractLsb' 0 5, m0) ∈ modeFields → sps.Pairwise (fun p q => bank1314 p.1 ≠ bank1314 q.1) →
    (select, again, c) ∈ [
      (asm (.setmode (code m0)) 0 0, asm (.setmode (code m0)) 0 0, { s.CPSR with mode := m0 }),
      (asm .unpack w0 0, asm (.setmode (code m0)) 0 0, statusOf w0 m0),
      (asm (.setmode (code m0)) 0 0, asm .unpack w0 0, statusOf w0 m0)] → ∃ t,
      Host.Core.run core (bootSequence select again sps entry).length
        { s with pending := bootSequence select again sps entry } = .next t ∧
      t.CPSR = c ∧ t.PC = entry ∧ t.SPSR = s.SPSR ∧ t.R0_7 = s.R0_7 ∧ t.R8_12 = s.R8_12 ∧
      ∀ p ∈ sps, regIn t p.1 13 = p.2

/-! ## The external bus (20_memory.md) -/

/-- The bus contract (R31) over plain storage, which is the model's choice (log 10, unsafe for this very claim: the
source says nothing of an address with no device behind it). For an aligned access in range, a stored word or halfword
lies little-endian, as R31 says; that it reads back, and that every other byte reads as before, in range or not, rests
on the choice. -/
def Obligations.BusAccessesAreLittleEndian : Prop :=
  ∀ (m : BusMemory) (a : Nat), busWf m = true →
    (∀ v : Word, busStated a 4 → read32 (write32 a v m) a = v ∧
      (∀ i : Fin 4, read8 (write32 a v m) (a + i.val) = v.extractLsb' (8 * i.val) 8) ∧
      (∀ x, x < a ∨ a + 4 ≤ x → read8 (write32 a v m) x = read8 m x)) ∧
    (∀ v : BitVec 16, busStated a 2 → read16 (write16 a v m) a = v ∧
      (∀ i : Fin 2, read8 (write16 a v m) (a + i.val) = v.extractLsb' (8 * i.val) 8) ∧
      (∀ x, x < a ∨ a + 2 ≤ x → read8 (write16 a v m) x = read8 m x))
end

