-- ==== Sys2Proof/Laws/Bus.lean ====
section
/-! SUPPORT. The bus memory keeps its canonical form, and a byte read after a byte write. -/

namespace Sys2Proof.Machine

/-- Every address listed in a canonical memory's tail is above its first. -/
theorem busWf_cons {c : Host.Cell} {m : BusMemory} :
    busWf (c :: m) = true ↔ c.2 ≠ Config.busByte c.1 ∧ (∀ d ∈ m.head?, c.1 < d.1) ∧ busWf m = true := by
  cases m with
  | nil => simp [busWf]
  | cons d rest => simp [busWf, and_assoc]

theorem busWf_lt {c : Host.Cell} {m : BusMemory} (h : busWf (c :: m) = true) : ∀ d ∈ m, c.1 < d.1 := by
  induction m generalizing c with
  | nil => simp
  | cons e rest ih =>
    obtain ⟨-, hlt, hrest⟩ := busWf_cons.1 h
    have hce : c.1 < e.1 := hlt e (by simp)
    intro d hd
    rcases List.mem_cons.1 hd with rfl | hd
    · exact hce
    · exact lt_trans hce (ih hrest d hd)

/-- A byte of an address below every listed one is what an unlisted address holds. -/
theorem read8_of_lt {m : BusMemory} {a : Nat} (h : ∀ d ∈ m, a < d.1) : read8 m a = Config.busByte a := by
  induction m with
  | nil => rfl
  | cons c rest ih =>
    have hc : c.1 ≠ a := by have := h c (by simp); omega
    simp only [read8, if_neg hc]
    exact ih fun d hd => h d (by simp [hd])

theorem read8_consByte {m : BusMemory} {a : Nat} (v : Byte) (x : Nat) (h : ∀ d ∈ m, a < d.1) :
    read8 (consByte a v m) x = if x = a then v else read8 m x := by
  unfold consByte
  by_cases hv : v = Config.busByte a
  · by_cases hx : x = a
    · subst hx; simp [hv, read8_of_lt h]
    · simp [hv, hx]
  · by_cases hx : x = a
    · subst hx; simp [hv, read8]
    · simp [hv, hx, read8, Ne.symm hx]

/-- A byte read after a byte write: the written byte at its address, the old byte everywhere else. -/
theorem read8_write8 {m : BusMemory} (h : busWf m = true) (a x : Nat) (v : Byte) :
    read8 (write8 a v m) x = if x = a then v else read8 m x := by
  induction m with
  | nil => exact read8_consByte v x (by simp)
  | cons c rest ih =>
    obtain ⟨-, -, hrest⟩ := busWf_cons.1 h
    have hlt := busWf_lt h
    unfold write8
    split
    · rename_i hac
      apply read8_consByte
      intro d hd
      rcases List.mem_cons.1 hd with rfl | hd
      · exact hac
      · exact lt_trans hac (hlt d hd)
    · split
      · rename_i hac
        rw [read8_consByte v x (fun d hd => hac ▸ hlt d hd)]
        by_cases hx : x = a
        · simp [hx]
        · have : c.1 ≠ x := by omega
          simp [hx, read8, this]
      · rename_i hne hac
        by_cases hcx : c.1 = x
        · have : x ≠ a := by omega
          simp [read8, hcx, this]
        · simp [read8, hcx, ih hrest]

theorem busWf_consByte {m : BusMemory} {a : Nat} (v : Byte) (hm : busWf m = true) (h : ∀ d ∈ m, a < d.1) :
    busWf (consByte a v m) = true := by
  unfold consByte
  split
  · exact hm
  · rename_i hv
    exact busWf_cons.2 ⟨hv, fun d hd => h d (List.mem_of_mem_head? hd), hm⟩

theorem write8_lower {m : BusMemory} {a b : Nat} (v : Byte) (hab : b < a) (h : ∀ d ∈ m, b < d.1) :
    ∀ d ∈ write8 a v m, b < d.1 := by
  induction m with
  | nil => intro d hd; unfold write8 consByte at hd; split at hd <;> simp_all
  | cons c rest ih =>
    intro d hd
    have hrest : ∀ d ∈ rest, b < d.1 := fun d hd => h d (by simp [hd])
    unfold write8 at hd
    split at hd
    · unfold consByte at hd
      split at hd
      · exact h d hd
      · rcases List.mem_cons.1 hd with rfl | hd
        · exact hab
        · exact h d hd
    · split at hd
      · unfold consByte at hd
        split at hd
        · exact hrest d hd
        · rcases List.mem_cons.1 hd with rfl | hd
          · exact hab
          · exact hrest d hd
      · rcases List.mem_cons.1 hd with rfl | hd
        · exact h d (by simp)
        · exact ih hrest d hd

/-- A byte write keeps the canonical form. -/
theorem busWf_write8 {m : BusMemory} (h : busWf m = true) (a : Nat) (v : Byte) : busWf (write8 a v m) = true := by
  induction m with
  | nil => exact busWf_consByte v rfl (by simp)
  | cons c rest ih =>
    obtain ⟨hc, -, hrest⟩ := busWf_cons.1 h
    have hlt := busWf_lt h
    unfold write8
    split
    · rename_i hac
      apply busWf_consByte v h
      intro d hd
      rcases List.mem_cons.1 hd with rfl | hd
      · exact hac
      · exact lt_trans hac (hlt d hd)
    · split
      · rename_i hac
        exact busWf_consByte v hrest (fun d hd => hac ▸ hlt d hd)
      · rename_i hne hac
        have hca : c.1 < a := by omega
        exact busWf_cons.2 ⟨hc, fun d hd => write8_lower v hca hlt d (List.mem_of_mem_head? hd), ih hrest⟩

/-- So does any sequence of byte writes, hence every write of the bus. -/
theorem busWf_writeBytes (cells : List Host.Cell) {m : BusMemory} (h : busWf m = true) :
    busWf (writeBytes cells m) = true := by
  induction cells generalizing m with
  | nil => exact h
  | cons c rest ih => exact ih (busWf_write8 h c.1 c.2)

theorem busWf_write16 {m : BusMemory} (h : busWf m = true) (a : Nat) (v : BitVec 16) : busWf (write16 a v m) = true :=
  busWf_writeBytes _ h

theorem busWf_write32 {m : BusMemory} (h : busWf m = true) (a : Nat) (v : Word) : busWf (write32 a v m) = true :=
  busWf_writeBytes _ h

end Sys2Proof.Machine
end

