-- ==== Sys2Proof/Laws/Decode.lean ====
section
/-! SUPPORT. The fields of an assembled command word are the ones it was assembled from. -/

namespace Sys2Proof

variable (op : BitVec 5) (sel : BitVec 4) (md : BitVec 3) (ci : Bool)

/-- The bits of an assembled command word, lowest field first (R41). -/
theorem commandWord_getLsbD (i : Nat) :
    (commandWord op sel md ci).getLsbD i =
      if i < 3 then false else if i < 4 then (i == 3 && ci) else if i < 7 then md.getLsbD (i - 4)
      else if i < 11 then sel.getLsbD (i - 7) else op.getLsbD (i - 11) := by
  unfold commandWord
  simp only [BitVec.getLsbD_append]
  by_cases h3 : i < 3
  · simp [h3]
  by_cases h4 : i < 4
  · have : i = 3 := by omega
    subst this; simp
  by_cases h7 : i < 7
  · have : i - 3 - 1 = i - 4 := by omega
    simp [h3, h4, h7, this, show ¬ i - 3 < 1 by omega, show i - 4 < 3 by omega]
  by_cases h11 : i < 11
  · have : i - 3 - 1 - 3 = i - 7 := by omega
    simp [h3, h4, h7, h11, this, show ¬ i - 3 < 1 by omega, show ¬ i - 3 - 1 < 3 by omega, show i - 7 < 4 by omega]
  · have : i - 3 - 1 - 3 - 4 = i - 11 := by omega
    simp [h3, h4, h7, h11, this, show ¬ i - 3 < 1 by omega, show ¬ i - 3 - 1 < 3 by omega,
      show ¬ i - 3 - 1 - 3 < 4 by omega]

@[simp] theorem opField_commandWord : opField (commandWord op sel md ci) = op := by
  apply BitVec.eq_of_getLsbD_eq
  intro i hi
  simp only [opField, BitVec.getLsbD_extractLsb', commandWord_getLsbD]
  interval_cases i <;> simp

@[simp] theorem selField_commandWord : selField (commandWord op sel md ci) = sel := by
  apply BitVec.eq_of_getLsbD_eq
  intro i hi
  simp only [selField, BitVec.getLsbD_extractLsb', commandWord_getLsbD]
  interval_cases i <;> simp

@[simp] theorem idxField_commandWord : idxField (commandWord op sel md ci) = sel.setWidth 3 := by
  apply BitVec.eq_of_getLsbD_eq
  intro i hi
  simp only [idxField, BitVec.getLsbD_extractLsb', commandWord_getLsbD, BitVec.getLsbD_setWidth]
  interval_cases i <;> simp

@[simp] theorem mdField_commandWord : mdField (commandWord op sel md ci) = md := by
  apply BitVec.eq_of_getLsbD_eq
  intro i hi
  simp only [mdField, BitVec.getLsbD_extractLsb', commandWord_getLsbD]
  interval_cases i <;> simp

@[simp] theorem ciField_commandWord : ciField (commandWord op sel md ci) = ci := by
  simp only [ciField, commandWord_getLsbD]
  simp

/-- A command word is its fields and its three unused low bits. -/
theorem eq_fields (w : CmdWord) :
    w = opField w ++ selField w ++ mdField w ++ BitVec.ofBool (ciField w) ++ w.extractLsb' 0 3 := by
  apply BitVec.eq_of_getLsbD_eq
  intro i hi
  simp only [BitVec.getLsbD_append, opField, selField, mdField, ciField, BitVec.getLsbD_extractLsb']
  interval_cases i <;> simp

end Sys2Proof
end

