-- ==== Sys2Proof/Laws/State.lean ====
section
/-! SUPPORT. What each field of State is after each plain update, one lemma per field and update. -/

namespace Sys2Proof.Machine

variable (s : State)

/-! ### State.withOutputs -/

@[simp] theorem State.withOutputs_R0_7 (y : Option Word) (f : Option (BitVec 4)) : (s.withOutputs y f).R0_7 = s.R0_7 := rfl
@[simp] theorem State.withOutputs_R8_12 (y : Option Word) (f : Option (BitVec 4)) : (s.withOutputs y f).R8_12 = s.R8_12 := rfl
@[simp] theorem State.withOutputs_R13_14 (y : Option Word) (f : Option (BitVec 4)) : (s.withOutputs y f).R13_14 = s.R13_14 := rfl
@[simp] theorem State.withOutputs_PC (y : Option Word) (f : Option (BitVec 4)) : (s.withOutputs y f).PC = s.PC := rfl
@[simp] theorem State.withOutputs_CPSR (y : Option Word) (f : Option (BitVec 4)) : (s.withOutputs y f).CPSR = s.CPSR := rfl
@[simp] theorem State.withOutputs_SPSR (y : Option Word) (f : Option (BitVec 4)) : (s.withOutputs y f).SPSR = s.SPSR := rfl
@[simp] theorem State.withOutputs_CMD (y : Option Word) (f : Option (BitVec 4)) : (s.withOutputs y f).CMD = s.CMD := rfl
@[simp] theorem State.withOutputs_A (y : Option Word) (f : Option (BitVec 4)) : (s.withOutputs y f).A = s.A := rfl
@[simp] theorem State.withOutputs_B (y : Option Word) (f : Option (BitVec 4)) : (s.withOutputs y f).B = s.B := rfl
@[simp] theorem State.withOutputs_Y (y : Option Word) (f : Option (BitVec 4)) : (s.withOutputs y f).Y = y := rfl
@[simp] theorem State.withOutputs_F (y : Option Word) (f : Option (BitVec 4)) : (s.withOutputs y f).F = f := rfl
@[simp] theorem State.withOutputs_pending (y : Option Word) (f : Option (BitVec 4)) : (s.withOutputs y f).pending = s.pending := rfl
@[simp] theorem State.withOutputs_resetMode (y : Option Word) (f : Option (BitVec 4)) : (s.withOutputs y f).resetMode = s.resetMode := rfl
@[simp] theorem State.withOutputs_invalidMPolicy (y : Option Word) (f : Option (BitVec 4)) : (s.withOutputs y f).invalidMPolicy = s.invalidMPolicy := rfl

/-! ### State.withCpsr -/

@[simp] theorem State.withCpsr_R0_7 (c : Cpsr) : (s.withCpsr c).R0_7 = s.R0_7 := rfl
@[simp] theorem State.withCpsr_R8_12 (c : Cpsr) : (s.withCpsr c).R8_12 = s.R8_12 := rfl
@[simp] theorem State.withCpsr_R13_14 (c : Cpsr) : (s.withCpsr c).R13_14 = s.R13_14 := rfl
@[simp] theorem State.withCpsr_PC (c : Cpsr) : (s.withCpsr c).PC = s.PC := rfl
@[simp] theorem State.withCpsr_CPSR (c : Cpsr) : (s.withCpsr c).CPSR = c := rfl
@[simp] theorem State.withCpsr_SPSR (c : Cpsr) : (s.withCpsr c).SPSR = s.SPSR := rfl
@[simp] theorem State.withCpsr_CMD (c : Cpsr) : (s.withCpsr c).CMD = s.CMD := rfl
@[simp] theorem State.withCpsr_A (c : Cpsr) : (s.withCpsr c).A = s.A := rfl
@[simp] theorem State.withCpsr_B (c : Cpsr) : (s.withCpsr c).B = s.B := rfl
@[simp] theorem State.withCpsr_Y (c : Cpsr) : (s.withCpsr c).Y = s.Y := rfl
@[simp] theorem State.withCpsr_F (c : Cpsr) : (s.withCpsr c).F = s.F := rfl
@[simp] theorem State.withCpsr_pending (c : Cpsr) : (s.withCpsr c).pending = s.pending := rfl
@[simp] theorem State.withCpsr_resetMode (c : Cpsr) : (s.withCpsr c).resetMode = s.resetMode := rfl
@[simp] theorem State.withCpsr_invalidMPolicy (c : Cpsr) : (s.withCpsr c).invalidMPolicy = s.invalidMPolicy := rfl

/-! ### State.withSpsr -/

@[simp] theorem State.withSpsr_R0_7 (k : Fin 5) (w : Word) : (s.withSpsr k w).R0_7 = s.R0_7 := rfl
@[simp] theorem State.withSpsr_R8_12 (k : Fin 5) (w : Word) : (s.withSpsr k w).R8_12 = s.R8_12 := rfl
@[simp] theorem State.withSpsr_R13_14 (k : Fin 5) (w : Word) : (s.withSpsr k w).R13_14 = s.R13_14 := rfl
@[simp] theorem State.withSpsr_PC (k : Fin 5) (w : Word) : (s.withSpsr k w).PC = s.PC := rfl
@[simp] theorem State.withSpsr_CPSR (k : Fin 5) (w : Word) : (s.withSpsr k w).CPSR = s.CPSR := rfl
@[simp] theorem State.withSpsr_SPSR (k : Fin 5) (w : Word) : (s.withSpsr k w).SPSR = s.SPSR.set k.val w := rfl
@[simp] theorem State.withSpsr_CMD (k : Fin 5) (w : Word) : (s.withSpsr k w).CMD = s.CMD := rfl
@[simp] theorem State.withSpsr_A (k : Fin 5) (w : Word) : (s.withSpsr k w).A = s.A := rfl
@[simp] theorem State.withSpsr_B (k : Fin 5) (w : Word) : (s.withSpsr k w).B = s.B := rfl
@[simp] theorem State.withSpsr_Y (k : Fin 5) (w : Word) : (s.withSpsr k w).Y = s.Y := rfl
@[simp] theorem State.withSpsr_F (k : Fin 5) (w : Word) : (s.withSpsr k w).F = s.F := rfl
@[simp] theorem State.withSpsr_pending (k : Fin 5) (w : Word) : (s.withSpsr k w).pending = s.pending := rfl
@[simp] theorem State.withSpsr_resetMode (k : Fin 5) (w : Word) : (s.withSpsr k w).resetMode = s.resetMode := rfl
@[simp] theorem State.withSpsr_invalidMPolicy (k : Fin 5) (w : Word) : (s.withSpsr k w).invalidMPolicy = s.invalidMPolicy := rfl

/-! ### State.withInputs -/

@[simp] theorem State.withInputs_R0_7 (c : Command) : (s.withInputs c).R0_7 = s.R0_7 := rfl
@[simp] theorem State.withInputs_R8_12 (c : Command) : (s.withInputs c).R8_12 = s.R8_12 := rfl
@[simp] theorem State.withInputs_R13_14 (c : Command) : (s.withInputs c).R13_14 = s.R13_14 := rfl
@[simp] theorem State.withInputs_PC (c : Command) : (s.withInputs c).PC = s.PC := rfl
@[simp] theorem State.withInputs_CPSR (c : Command) : (s.withInputs c).CPSR = s.CPSR := rfl
@[simp] theorem State.withInputs_SPSR (c : Command) : (s.withInputs c).SPSR = s.SPSR := rfl
@[simp] theorem State.withInputs_CMD (c : Command) : (s.withInputs c).CMD = c.cmd := rfl
@[simp] theorem State.withInputs_A (c : Command) : (s.withInputs c).A = c.a := rfl
@[simp] theorem State.withInputs_B (c : Command) : (s.withInputs c).B = c.b := rfl
@[simp] theorem State.withInputs_Y (c : Command) : (s.withInputs c).Y = s.Y := rfl
@[simp] theorem State.withInputs_F (c : Command) : (s.withInputs c).F = s.F := rfl
@[simp] theorem State.withInputs_pending (c : Command) : (s.withInputs c).pending = s.pending := rfl
@[simp] theorem State.withInputs_resetMode (c : Command) : (s.withInputs c).resetMode = s.resetMode := rfl
@[simp] theorem State.withInputs_invalidMPolicy (c : Command) : (s.withInputs c).invalidMPolicy = s.invalidMPolicy := rfl

/-! ### State.withPending -/

@[simp] theorem State.withPending_R0_7 (p : List Request) : (s.withPending p).R0_7 = s.R0_7 := rfl
@[simp] theorem State.withPending_R8_12 (p : List Request) : (s.withPending p).R8_12 = s.R8_12 := rfl
@[simp] theorem State.withPending_R13_14 (p : List Request) : (s.withPending p).R13_14 = s.R13_14 := rfl
@[simp] theorem State.withPending_PC (p : List Request) : (s.withPending p).PC = s.PC := rfl
@[simp] theorem State.withPending_CPSR (p : List Request) : (s.withPending p).CPSR = s.CPSR := rfl
@[simp] theorem State.withPending_SPSR (p : List Request) : (s.withPending p).SPSR = s.SPSR := rfl
@[simp] theorem State.withPending_CMD (p : List Request) : (s.withPending p).CMD = s.CMD := rfl
@[simp] theorem State.withPending_A (p : List Request) : (s.withPending p).A = s.A := rfl
@[simp] theorem State.withPending_B (p : List Request) : (s.withPending p).B = s.B := rfl
@[simp] theorem State.withPending_Y (p : List Request) : (s.withPending p).Y = s.Y := rfl
@[simp] theorem State.withPending_F (p : List Request) : (s.withPending p).F = s.F := rfl
@[simp] theorem State.withPending_pending (p : List Request) : (s.withPending p).pending = p := rfl
@[simp] theorem State.withPending_resetMode (p : List Request) : (s.withPending p).resetMode = s.resetMode := rfl
@[simp] theorem State.withPending_invalidMPolicy (p : List Request) : (s.withPending p).invalidMPolicy = s.invalidMPolicy := rfl

/-! ### setMode -/

@[simp] theorem setMode_R0_7 (m : Mode) : (setMode m s).R0_7 = s.R0_7 := rfl
@[simp] theorem setMode_R8_12 (m : Mode) : (setMode m s).R8_12 = s.R8_12 := rfl
@[simp] theorem setMode_R13_14 (m : Mode) : (setMode m s).R13_14 = s.R13_14 := rfl
@[simp] theorem setMode_PC (m : Mode) : (setMode m s).PC = s.PC := rfl
@[simp] theorem setMode_CPSR (m : Mode) : (setMode m s).CPSR = { s.CPSR with mode := m } := rfl
@[simp] theorem setMode_SPSR (m : Mode) : (setMode m s).SPSR = s.SPSR := rfl
@[simp] theorem setMode_CMD (m : Mode) : (setMode m s).CMD = s.CMD := rfl
@[simp] theorem setMode_A (m : Mode) : (setMode m s).A = s.A := rfl
@[simp] theorem setMode_B (m : Mode) : (setMode m s).B = s.B := rfl
@[simp] theorem setMode_Y (m : Mode) : (setMode m s).Y = s.Y := rfl
@[simp] theorem setMode_F (m : Mode) : (setMode m s).F = s.F := rfl
@[simp] theorem setMode_pending (m : Mode) : (setMode m s).pending = s.pending := rfl
@[simp] theorem setMode_resetMode (m : Mode) : (setMode m s).resetMode = s.resetMode := rfl
@[simp] theorem setMode_invalidMPolicy (m : Mode) : (setMode m s).invalidMPolicy = s.invalidMPolicy := rfl

/-! ### setFlags -/

@[simp] theorem setFlags_R0_7 (w : Word) : (setFlags w s).R0_7 = s.R0_7 := rfl
@[simp] theorem setFlags_R8_12 (w : Word) : (setFlags w s).R8_12 = s.R8_12 := rfl
@[simp] theorem setFlags_R13_14 (w : Word) : (setFlags w s).R13_14 = s.R13_14 := rfl
@[simp] theorem setFlags_PC (w : Word) : (setFlags w s).PC = s.PC := rfl
@[simp] theorem setFlags_CPSR (w : Word) : (setFlags w s).CPSR =
    { s.CPSR with N := w.getLsbD 31, Z := w.getLsbD 30, C := w.getLsbD 29, V := w.getLsbD 28 } := rfl
@[simp] theorem setFlags_SPSR (w : Word) : (setFlags w s).SPSR = s.SPSR := rfl
@[simp] theorem setFlags_CMD (w : Word) : (setFlags w s).CMD = s.CMD := rfl
@[simp] theorem setFlags_A (w : Word) : (setFlags w s).A = s.A := rfl
@[simp] theorem setFlags_B (w : Word) : (setFlags w s).B = s.B := rfl
@[simp] theorem setFlags_Y (w : Word) : (setFlags w s).Y = s.Y := rfl
@[simp] theorem setFlags_F (w : Word) : (setFlags w s).F = s.F := rfl
@[simp] theorem setFlags_pending (w : Word) : (setFlags w s).pending = s.pending := rfl
@[simp] theorem setFlags_resetMode (w : Word) : (setFlags w s).resetMode = s.resetMode := rfl
@[simp] theorem setFlags_invalidMPolicy (w : Word) : (setFlags w s).invalidMPolicy = s.invalidMPolicy := rfl

/-! ### writeSlot and writeReg touch the register slots alone -/

@[simp] theorem writeSlot_CPSR (x : Slot) (v : Word) : (writeSlot s x v).CPSR = s.CPSR := by cases x <;> rfl
@[simp] theorem writeSlot_SPSR (x : Slot) (v : Word) : (writeSlot s x v).SPSR = s.SPSR := by cases x <;> rfl
@[simp] theorem writeSlot_CMD (x : Slot) (v : Word) : (writeSlot s x v).CMD = s.CMD := by cases x <;> rfl
@[simp] theorem writeSlot_A (x : Slot) (v : Word) : (writeSlot s x v).A = s.A := by cases x <;> rfl
@[simp] theorem writeSlot_B (x : Slot) (v : Word) : (writeSlot s x v).B = s.B := by cases x <;> rfl
@[simp] theorem writeSlot_Y (x : Slot) (v : Word) : (writeSlot s x v).Y = s.Y := by cases x <;> rfl
@[simp] theorem writeSlot_F (x : Slot) (v : Word) : (writeSlot s x v).F = s.F := by cases x <;> rfl
@[simp] theorem writeSlot_pending (x : Slot) (v : Word) : (writeSlot s x v).pending = s.pending := by cases x <;> rfl
@[simp] theorem writeSlot_resetMode (x : Slot) (v : Word) : (writeSlot s x v).resetMode = s.resetMode := by cases x <;> rfl
@[simp] theorem writeSlot_invalidMPolicy (x : Slot) (v : Word) : (writeSlot s x v).invalidMPolicy = s.invalidMPolicy := by cases x <;> rfl

@[simp] theorem writeReg_CPSR (r : Nat) (v : Word) : (writeReg r v s).CPSR = s.CPSR := by simp [writeReg]
@[simp] theorem writeReg_SPSR (r : Nat) (v : Word) : (writeReg r v s).SPSR = s.SPSR := by simp [writeReg]
@[simp] theorem writeReg_CMD (r : Nat) (v : Word) : (writeReg r v s).CMD = s.CMD := by simp [writeReg]
@[simp] theorem writeReg_A (r : Nat) (v : Word) : (writeReg r v s).A = s.A := by simp [writeReg]
@[simp] theorem writeReg_B (r : Nat) (v : Word) : (writeReg r v s).B = s.B := by simp [writeReg]
@[simp] theorem writeReg_Y (r : Nat) (v : Word) : (writeReg r v s).Y = s.Y := by simp [writeReg]
@[simp] theorem writeReg_F (r : Nat) (v : Word) : (writeReg r v s).F = s.F := by simp [writeReg]
@[simp] theorem writeReg_pending (r : Nat) (v : Word) : (writeReg r v s).pending = s.pending := by simp [writeReg]
@[simp] theorem writeReg_resetMode (r : Nat) (v : Word) : (writeReg r v s).resetMode = s.resetMode := by simp [writeReg]
@[simp] theorem writeReg_invalidMPolicy (r : Nat) (v : Word) : (writeReg r v s).invalidMPolicy = s.invalidMPolicy := by simp [writeReg]

/-! ### The saved-status writers touch SPSR alone -/

@[simp] theorem writeSavedStatus_R0_7 (w : Word) : (writeSavedStatus w s).R0_7 = s.R0_7 := by
  unfold writeSavedStatus; split <;> rfl
@[simp] theorem writeSavedStatus_R8_12 (w : Word) : (writeSavedStatus w s).R8_12 = s.R8_12 := by
  unfold writeSavedStatus; split <;> rfl
@[simp] theorem writeSavedStatus_R13_14 (w : Word) : (writeSavedStatus w s).R13_14 = s.R13_14 := by
  unfold writeSavedStatus; split <;> rfl
@[simp] theorem writeSavedStatus_PC (w : Word) : (writeSavedStatus w s).PC = s.PC := by
  unfold writeSavedStatus; split <;> rfl
@[simp] theorem writeSavedStatus_CPSR (w : Word) : (writeSavedStatus w s).CPSR = s.CPSR := by
  unfold writeSavedStatus; split <;> rfl
@[simp] theorem writeSavedStatus_CMD (w : Word) : (writeSavedStatus w s).CMD = s.CMD := by
  unfold writeSavedStatus; split <;> rfl
@[simp] theorem writeSavedStatus_A (w : Word) : (writeSavedStatus w s).A = s.A := by
  unfold writeSavedStatus; split <;> rfl
@[simp] theorem writeSavedStatus_B (w : Word) : (writeSavedStatus w s).B = s.B := by
  unfold writeSavedStatus; split <;> rfl
@[simp] theorem writeSavedStatus_Y (w : Word) : (writeSavedStatus w s).Y = s.Y := by
  unfold writeSavedStatus; split <;> rfl
@[simp] theorem writeSavedStatus_F (w : Word) : (writeSavedStatus w s).F = s.F := by
  unfold writeSavedStatus; split <;> rfl
@[simp] theorem writeSavedStatus_pending (w : Word) : (writeSavedStatus w s).pending = s.pending := by
  unfold writeSavedStatus; split <;> rfl
@[simp] theorem writeSavedStatus_resetMode (w : Word) : (writeSavedStatus w s).resetMode = s.resetMode := by
  unfold writeSavedStatus; split <;> rfl
@[simp] theorem writeSavedStatus_invalidMPolicy (w : Word) : (writeSavedStatus w s).invalidMPolicy = s.invalidMPolicy := by
  unfold writeSavedStatus; split <;> rfl

@[simp] theorem mergeSavedFlags_R0_7 (w : Word) : (mergeSavedFlags w s).R0_7 = s.R0_7 := by
  unfold mergeSavedFlags; split <;> rfl
@[simp] theorem mergeSavedFlags_R8_12 (w : Word) : (mergeSavedFlags w s).R8_12 = s.R8_12 := by
  unfold mergeSavedFlags; split <;> rfl
@[simp] theorem mergeSavedFlags_R13_14 (w : Word) : (mergeSavedFlags w s).R13_14 = s.R13_14 := by
  unfold mergeSavedFlags; split <;> rfl
@[simp] theorem mergeSavedFlags_PC (w : Word) : (mergeSavedFlags w s).PC = s.PC := by
  unfold mergeSavedFlags; split <;> rfl
@[simp] theorem mergeSavedFlags_CPSR (w : Word) : (mergeSavedFlags w s).CPSR = s.CPSR := by
  unfold mergeSavedFlags; split <;> rfl
@[simp] theorem mergeSavedFlags_CMD (w : Word) : (mergeSavedFlags w s).CMD = s.CMD := by
  unfold mergeSavedFlags; split <;> rfl
@[simp] theorem mergeSavedFlags_A (w : Word) : (mergeSavedFlags w s).A = s.A := by
  unfold mergeSavedFlags; split <;> rfl
@[simp] theorem mergeSavedFlags_B (w : Word) : (mergeSavedFlags w s).B = s.B := by
  unfold mergeSavedFlags; split <;> rfl
@[simp] theorem mergeSavedFlags_Y (w : Word) : (mergeSavedFlags w s).Y = s.Y := by
  unfold mergeSavedFlags; split <;> rfl
@[simp] theorem mergeSavedFlags_F (w : Word) : (mergeSavedFlags w s).F = s.F := by
  unfold mergeSavedFlags; split <;> rfl
@[simp] theorem mergeSavedFlags_pending (w : Word) : (mergeSavedFlags w s).pending = s.pending := by
  unfold mergeSavedFlags; split <;> rfl
@[simp] theorem mergeSavedFlags_resetMode (w : Word) : (mergeSavedFlags w s).resetMode = s.resetMode := by
  unfold mergeSavedFlags; split <;> rfl
@[simp] theorem mergeSavedFlags_invalidMPolicy (w : Word) : (mergeSavedFlags w s).invalidMPolicy = s.invalidMPolicy := by
  unfold mergeSavedFlags; split <;> rfl

end Sys2Proof.Machine
end

