-- ==== Sys2Proof/Laws/Ops.lean ====
section
/-! SUPPORT. One lemma per shared operation that says everything it does. -/

namespace Sys2Proof.Machine

/-! ### Outputs -/

theorem driveY_next {y : Word} {s t : State} (h : driveY y s = .next t) : t = s.withOutputs (some y) none := by
  injection h with h; exact h.symm

theorem driveNone_next {s t : State} (h : driveNone s = .next t) : t = s.withOutputs none none := by
  injection h with h; exact h.symm

theorem driveAlu_next {x : AluResult} {s t : State} (h : driveAlu x s = .next t) :
    t = s.withOutputs (some x.r) (some (flagBits x.N x.Z x.C x.V)) := by
  injection h with h; exact h.symm

/-! ### Slots -/

/-- A slot read after a slot write: the written word in the written slot, the old word in every other. -/
theorem readSlot_writeSlot (s : State) (x y : Slot) (v : Word) :
    readSlot (writeSlot s x v) y = if x = y then v else readSlot s y := by
  cases x <;> cases y <;> simp [readSlot, writeSlot, Vector.getElem_set, Fin.ext_iff]
  case mid.mid b j b' j' =>
    by_cases hb : b.val = b'.val
    · simp [hb, Vector.getElem_set]
    · simp [hb]
  case spLr.spLr b j b' j' =>
    by_cases hb : b.val = b'.val
    · simp [hb, Vector.getElem_set]
    · simp [hb]

@[simp] theorem readSlot_withOutputs (s : State) (y : Option Word) (f : Option (BitVec 4)) (x : Slot) :
    readSlot (s.withOutputs y f) x = readSlot s x := by cases x <;> rfl

@[simp] theorem readSlot_withCpsr (s : State) (c : Cpsr) (x : Slot) : readSlot (s.withCpsr c) x = readSlot s x := by
  cases x <;> rfl

@[simp] theorem readSlot_withSpsr (s : State) (k : Fin 5) (w : Word) (x : Slot) :
    readSlot (s.withSpsr k w) x = readSlot s x := by cases x <;> rfl

@[simp] theorem readSlot_withInputs (s : State) (c : Command) (x : Slot) :
    readSlot (s.withInputs c) x = readSlot s x := by cases x <;> rfl

@[simp] theorem readSlot_withPending (s : State) (p : List Request) (x : Slot) :
    readSlot (s.withPending p) x = readSlot s x := by cases x <;> rfl

@[simp] theorem readSlot_setMode (m : Mode) (s : State) (x : Slot) : readSlot (setMode m s) x = readSlot s x := by
  cases x <;> rfl

@[simp] theorem readSlot_setFlags (w : Word) (s : State) (x : Slot) : readSlot (setFlags w s) x = readSlot s x := by
  cases x <;> rfl

/-- The slot map, one equation per row of R80. -/
theorem slotOf_low (m : Mode) (i : Fin 8) : slotOf m ⟨i.val, by omega⟩ = .low i := by
  simp [slotOf]

theorem slotOf_mid (m : Mode) (j : Fin 5) : slotOf m ⟨8 + j.val, by omega⟩ = .mid (bank812 m) j := by
  have h1 : ¬ 8 + j.val < 8 := by omega
  have h2 : 8 + j.val < 13 := by omega
  simp [slotOf, h1, h2]

theorem slotOf_spLr (m : Mode) (k : Fin 2) : slotOf m ⟨13 + k.val, by omega⟩ = .spLr (bank1314 m) k := by
  have h1 : ¬ 13 + k.val < 8 := by omega
  have h2 : ¬ 13 + k.val < 13 := by omega
  have h3 : 13 + k.val < 15 := by omega
  simp [slotOf, h1, h2, h3]

theorem slotOf_pc (m : Mode) : slotOf m 15 = .pc := rfl

/-- A selector that is reduced already names its register. -/
theorem archSel_of_mod {n r : Nat} (h : n % 16 = r) (hr : r < 16) : archSel n = ⟨r, hr⟩ := by
  simp [archSel, h]

@[simp] theorem archSel_fin (r : Fin 16) : archSel r.val = r := by
  simp [archSel, Nat.mod_eq_of_lt r.isLt]

/-- A register read after a register write in the same state: by the slots the two numbers reach. -/
theorem readReg_writeReg (s : State) (r q : Nat) (v : Word) :
    readReg (writeReg r v s) q =
      if slotOf s.CPSR.mode (archSel r) = slotOf s.CPSR.mode (archSel q) then v else readReg s q := by
  simp [readReg, writeReg, readSlot_writeSlot]

/-! ### The status word -/

theorem ofNat_b2n (b : Bool) : BitVec.ofNat 32 (b2n b) = (BitVec.ofBool b).setWidth 32 := by cases b <;> rfl

/-- The status word as R18 lays it out, one field beside the next. -/
theorem packStatus_fields (c : Cpsr) :
    packStatus c = BitVec.ofBool c.N ++ BitVec.ofBool c.Z ++ BitVec.ofBool c.C ++ BitVec.ofBool c.V ++ c.ctl ++
      modeField c.mode := by
  simp only [packStatus, ofNat_b2n]
  generalize modeField c.mode = f
  apply BitVec.eq_of_getLsbD_eq
  intro i hi
  simp only [BitVec.getLsbD_append, BitVec.getLsbD_or, BitVec.getLsbD_shiftLeft, BitVec.getLsbD_setWidth]
  interval_cases i <;> simp

theorem decodeM_modeField (m : Mode) : decodeM (modeField m) = some m := by cases m <;> rfl

theorem modeField_injective {m m' : Mode} (h : modeField m = modeField m') : m = m' := by
  have := congrArg decodeM h
  simpa [decodeM_modeField] using this

/-- `decodeM` is the inverse of the M column (R62): it answers a mode exactly on that mode's field. -/
theorem decodeM_eq_some {f : BitVec 5} {m : Mode} : decodeM f = some m ↔ f = modeField m := by
  constructor
  · revert f m
    have : ∀ f : BitVec 5, ∀ m ∈ decodeM f, f = modeField m := by decide
    intro f m h
    exact this f m h
  · rintro rfl
    exact decodeM_modeField m

theorem packStatus_modeField (c : Cpsr) : (packStatus c).extractLsb' 0 5 = modeField c.mode := by
  rw [packStatus_fields]
  exact BitVec.extractLsb'_append_eq_right

theorem mem_modeFields {f : BitVec 5} {m : Mode} : (f, m) ∈ modeFields ↔ f = modeField m := by
  cases m <;> simp [modeFields, modeField]

theorem validModeField_iff {w : Word} : ValidModeField w ↔ ∃ m, decodeM (w.extractLsb' 0 5) = some m := by
  have h : ∀ f : BitVec 5, f ∈ ([0x10, 0x11, 0x12, 0x13, 0x17, 0x1B, 0x1F] : List (BitVec 5)) ↔
      (decodeM f).isSome = true := by decide
  rw [ValidModeField, h, Option.isSome_iff_exists]

theorem mem_spsrSlots {m : Mode} {k : Fin 5} : (m, k) ∈ spsrSlots ↔ spsrIndex m = some k := by
  cases m <;> simp [spsrSlots, spsrIndex, eq_comm]

theorem spsrIndex_userOrSystem {m : Mode} (h : userOrSystem m = true) : spsrIndex m = none := by
  cases m <;> simp_all [userOrSystem, spsrIndex]

/-- Everything installing a status word can do. -/
theorem installStatus_cases (w : Word) (s : State) :
    (∃ m, decodeM (w.extractLsb' 0 5) = some m ∧
      installStatus w s = .next ((s.withCpsr (unpackStatus w m)).withOutputs none none)) ∨
    (decodeM (w.extractLsb' 0 5) = none ∧ s.invalidMPolicy = .fault ∧
      installStatus w s = .fault (.invalidModeField s.CMD w)) ∨
    (decodeM (w.extractLsb' 0 5) = none ∧ s.invalidMPolicy = .keepMode ∧
      installStatus w s = .next ((s.withCpsr (unpackStatus w s.CPSR.mode)).withOutputs none none)) := by
  unfold installStatus
  cases hd : decodeM (w.extractLsb' 0 5) <;> cases hp : s.invalidMPolicy <;> simp [driveNone]

/-- Everything RESTORE's operation can do. -/
theorem restoreSavedStatus_cases (s : State) :
    (spsrIndex s.CPSR.mode = none ∧ restoreSavedStatus s = .next (s.withOutputs none none)) ∨
    (∃ k, spsrIndex s.CPSR.mode = some k ∧ restoreSavedStatus s = installStatus s.SPSR[k.val] s) := by
  unfold restoreSavedStatus
  cases hk : spsrIndex s.CPSR.mode with
  | none => exact .inl ⟨rfl, rfl⟩
  | some k => exact .inr ⟨k, rfl, rfl⟩

/-- Everything a saved-status write does to the SPSR slots. -/
theorem writeSavedStatus_SPSR (w : Word) (s : State) :
    (spsrIndex s.CPSR.mode = none ∧ writeSavedStatus w s = s) ∨
    (∃ k, spsrIndex s.CPSR.mode = some k ∧ writeSavedStatus w s = s.withSpsr k w) := by
  unfold writeSavedStatus
  cases hk : spsrIndex s.CPSR.mode with
  | none => exact .inl ⟨rfl, rfl⟩
  | some k => exact .inr ⟨k, rfl, rfl⟩

/-! ### Mode codes -/

/-- `mode_of_code` is the inverse of the command-code column (R17, R45). -/
theorem modeOfCode_code (m : Mode) : modeOfCode (code m) = some m := by cases m <;> rfl

theorem modeOfCode_eq_none {md : BitVec 3} : modeOfCode md = none ↔ md = 7 := by
  revert md; decide

end Sys2Proof.Machine
end

