-- ==== Sys2Proof/Laws/PerInstr.lean ====
section
/-! SUPPORT. Of every operation: its canonical word matches its row of spec/opcode_table.json (`match` under the mask 0xF800) and no unused bit of it is set. -/

namespace Sys2Proof.Laws.OpcodeRow

/-- The row's `match` under its mask, and the bits 2..0 that no command uses (R41, R42, R53). -/
def Statement (i : Instr) : Prop :=
  encode i &&& 0xF800#16 = i.opcode.setWidth 16 <<< 11 ∧ encode i &&& 0x0007#16 = 0#16

/-- Any word assembled with opcode `op` has the row's bits. -/
theorem commandWord_row (op : BitVec 5) (sel : BitVec 4) (md : BitVec 3) (ci : Bool) :
    commandWord op sel md ci &&& 0xF800#16 = op.setWidth 16 <<< 11 ∧ commandWord op sel md ci &&& 0x0007#16 = 0#16 := by
  unfold commandWord
  constructor <;> apply BitVec.eq_of_getLsbD_eq <;> intro i hi <;>
    simp only [BitVec.getLsbD_and, BitVec.getLsbD_append, BitVec.getLsbD_shiftLeft, BitVec.getLsbD_setWidth] <;>
    interval_cases i <;> simp

theorem curmode : Statement .curmode := commandWord_row _ _ _ _
theorem setmode (md : BitVec 3) : Statement (.setmode md) := commandWord_row _ _ _ _
theorem bank1314 : Statement .bank1314 := commandWord_row _ _ _ _
theorem bank812 : Statement .bank812 := commandWord_row _ _ _ _
theorem spsridx : Statement .spsridx := commandWord_row _ _ _ _
theorem pack : Statement .pack := commandWord_row _ _ _ _
theorem unpack : Statement .unpack := commandWord_row _ _ _ _
theorem wrflags : Statement .wrflags := commandWord_row _ _ _ _
theorem rdspsr : Statement .rdspsr := commandWord_row _ _ _ _
theorem wrspsr : Statement .wrspsr := commandWord_row _ _ _ _
theorem restore : Statement .restore := commandWord_row _ _ _ _
theorem mrgspsrf : Statement .mrgspsrf := commandWord_row _ _ _ _
theorem rdlow (idx : Nat) : Statement (.rdlow idx) := commandWord_row _ _ _ _
theorem wrlow (idx : Nat) : Statement (.wrlow idx) := commandWord_row _ _ _ _
theorem rdhigh (idx : Nat) : Statement (.rdhigh idx) := commandWord_row _ _ _ _
theorem wrhigh (idx : Nat) : Statement (.wrhigh idx) := commandWord_row _ _ _ _
theorem rdarch (reg : Nat) : Statement (.rdarch reg) := commandWord_row _ _ _ _
theorem wrarch (reg : Nat) : Statement (.wrarch reg) := commandWord_row _ _ _ _
theorem rdsp : Statement .rdsp := commandWord_row _ _ _ _
theorem wrsp : Statement .wrsp := commandWord_row _ _ _ _
theorem rdlr : Statement .rdlr := commandWord_row _ _ _ _
theorem wrlr : Statement .wrlr := commandWord_row _ _ _ _
theorem rdpc : Statement .rdpc := commandWord_row _ _ _ _
theorem wrpc : Statement .wrpc := commandWord_row _ _ _ _
theorem add : Statement .add := commandWord_row _ _ _ _
theorem sub : Statement .sub := commandWord_row _ _ _ _
theorem adc (ci : Bool) : Statement (.adc ci) := commandWord_row _ _ _ _
theorem sbc (ci : Bool) : Statement (.sbc ci) := commandWord_row _ _ _ _

end Sys2Proof.Laws.OpcodeRow
end

