-- ==== Sys2Proof/Laws/Run.lean ====
section
/-! SUPPORT. What one step and one step of a run can do, and how a run of the host is taken apart. -/

namespace Sys2Proof.Machine

/-- Everything a step can do: idle, or serve the first pending request. -/
theorem step_cases (s : State) :
    (s.pending = [] ∧ step s = .next (s.withOutputs none none)) ∨
    (∃ q rest, s.pending = q :: rest ∧ step s = serve q (s.withPending rest)) := by
  unfold step
  cases h : s.pending with
  | nil => exact .inl ⟨rfl, rfl⟩
  | cons q rest => exact .inr ⟨q, rest, rfl, rfl⟩

/-- Everything serving a request can do. -/
theorem serve_cases (q : Request) (s : State) :
    (∃ c i, q = .command c ∧ decode c.cmd = .ok i ∧ serve q s = exec i (s.withInputs c)) ∨
    (∃ c e, q = .command c ∧ decode c.cmd = .error e ∧ serve q s = .refused (refusalOf c.cmd e)) ∨
    (q = .reset ∧ serve q s = resetInput s) ∨
    (∃ c d, q = .concurrent c d ∧ serve q s = .refused (.concurrentCommands c.cmd d.cmd)) := by
  cases q with
  | command c =>
    cases h : decode c.cmd with
    | ok i => exact .inl ⟨c, i, rfl, h, by simp [serve, issue, h]⟩
    | error e => exact .inr (.inl ⟨c, e, rfl, h, by simp [serve, issue, h]⟩)
  | reset => exact .inr (.inr (.inl ⟨rfl, rfl⟩))
  | concurrent c d => exact .inr (.inr (.inr ⟨c, d, rfl, rfl⟩))

/-- Presenting the canonical word of an operation that decodes to it is running it on those operands. -/
theorem step_asm {i : Instr} (h : decode (encode i) = .ok i) (s : State) (a b : Word) (rest : List Request) :
    step (s.withPending (asm i a b :: rest)) =
      exec i ((s.withPending rest).withInputs { cmd := encode i, a := a, b := b }) := by
  simp [step, State.withPending, asm, serve, issue, h]

/-- The first step of a run, where it gives a next state. -/
theorem run_succ_of_next {k : Nat} {s t : State} (h : step s = .next t) :
    Host.Core.run core (k + 1) s = Host.Core.run core k t := by
  have h' : core.step s = .next t := h
  simp only [Host.Core.run, h']

/-- A run goes on from where its first part arrives. -/
theorem run_add_of_next {a b : Nat} {s t : State} (h : Host.Core.run core a s = .next t) :
    Host.Core.run core (a + b) s = Host.Core.run core b t := by
  induction a generalizing s with
  | zero => cases (show Host.Outcome.next s = Host.Outcome.next t from h); rw [Nat.zero_add]
  | succ n ih =>
    rw [Nat.succ_add]
    cases hs : core.step s with
    | next x => exact (run_succ_of_next hs).trans (ih ((run_succ_of_next hs).symm.trans h))
    | fault x => simp [Host.Core.run, hs] at h
    | refused x => simp [Host.Core.run, hs] at h

/-- Everything one step of a run can do: go on, or record a mark and drop the request. -/
theorem advance_cases (r : Run) :
    (∃ t, step r.state = .next t ∧ advance r = { r with state := t }) ∨
    (∃ f, step r.state = .fault f ∧
      advance r = { r with state := afterStop r.state, faults := r.faults ++ [f] }) ∨
    (∃ q, step r.state = .refused q ∧
      advance r = { r with state := afterStop r.state, refusals := r.refusals ++ [q] }) := by
  unfold advance
  cases h : step r.state with
  | next t => exact .inl ⟨t, rfl, rfl⟩
  | fault f => exact .inr (.inl ⟨f, rfl, rfl⟩)
  | refused q => exact .inr (.inr ⟨q, rfl, rfl⟩)

/-- A state after a stop: the request is gone, the elements of R10 stay, no output is driven. -/
theorem afterStop_effect (s : State) (q : Request) (rest : List Request) (h : s.pending = q :: rest) :
    SameBlock s (afterStop s) ∧ (afterStop s).Y = none ∧ (afterStop s).F = none ∧ (afterStop s).pending = rest ∧
    (afterStop s).resetMode = s.resetMode ∧ (afterStop s).invalidMPolicy = s.invalidMPolicy := by
  unfold afterStop
  rw [h]
  cases q <;> simp [presentRequest, SameBlock, SameRegisters]

end Sys2Proof.Machine
end

