-- ==== Sys2Proof/Tests/Slice0.lean ====
section
/-! SUPPORT. Tests whose expected values come from the spec: words written out from 30_encoding.md R41 and R47, rows of 95_test_vectors.md and the rules' examples; and a witness for the hypotheses of each statement. -/

namespace Sys2Proof.Tests

open Sys2Proof Sys2Proof.Machine

/-- The outcome is a next state with the property. -/
def nextIs (o : Host.Outcome State Fault Refusal) (p : State → Bool) : Bool :=
  match o with
  | .next t => p t
  | .fault _ => false
  | .refused _ => false

/-- The outcome is this fault. -/
def faultIs (o : Host.Outcome State Fault Refusal) (f : Fault) : Bool :=
  match o with
  | .fault g => g = f
  | .next _ => false
  | .refused _ => false

/-- The outcome is this refusal. -/
def refusedIs (o : Host.Outcome State Fault Refusal) (q : Refusal) : Bool :=
  match o with
  | .refused r => r = q
  | .next _ => false
  | .fault _ => false

/-- A fresh instance in mode `m` with `a` and `b` on the data inputs. -/
def fresh (m : Mode) (a b : Word) : State := { State.resetWith m .fault with A := a, B := b }

/-- What the decoder says of a word it gives no operation for. -/
def errorOf (w : CmdWord) : Option DecodeError :=
  match decode w with
  | .ok _ => none
  | .error e => some e

/-! ### Well-formedness: one ill-formed term for each check -/

theorem test_wf_refuses_setmode_code7 : (Instr.setmode 7).wf = false := by decide
theorem test_wf_refuses_rdlow_index8 : (Instr.rdlow 8).wf = false := by decide
theorem test_wf_refuses_wrlow_index8 : (Instr.wrlow 8).wf = false := by decide
theorem test_wf_refuses_rdhigh_index8 : (Instr.rdhigh 8).wf = false := by decide
theorem test_wf_refuses_wrhigh_index8 : (Instr.wrhigh 8).wf = false := by decide
theorem test_wf_refuses_rdarch_reg16 : (Instr.rdarch 16).wf = false := by decide
theorem test_wf_refuses_wrarch_reg16 : (Instr.wrarch 16).wf = false := by decide
theorem test_wf_accepts_the_last_codes :
    ((Instr.setmode 6).wf && (Instr.rdhigh 7).wf && (Instr.wrarch 15).wf) = true := by decide

/-! ### Decoding: OP, SEL, MD, CI and the unused bits, written out (R41, R47) -/

theorem test_decode_curmode : decodeTableWord 16 0b00000_0000_000_0_000 = some .curmode := by decide
theorem test_decode_setmode : decodeTableWord 16 0b00001_0000_101_0_000 = some (.setmode 5) := by decide
theorem test_decode_bank1314 : decodeTableWord 16 0b00010_0000_000_0_000 = some .bank1314 := by decide
theorem test_decode_bank812 : decodeTableWord 16 0b00011_0000_000_0_000 = some .bank812 := by decide
theorem test_decode_spsridx : decodeTableWord 16 0b00100_0000_000_0_000 = some .spsridx := by decide
theorem test_decode_pack : decodeTableWord 16 0b00101_0000_000_0_000 = some .pack := by decide
theorem test_decode_unpack : decodeTableWord 16 0b00110_0000_000_0_000 = some .unpack := by decide
theorem test_decode_wrflags : decodeTableWord 16 0b00111_0000_000_0_000 = some .wrflags := by decide
theorem test_decode_rdspsr : decodeTableWord 16 0b01000_0000_000_0_000 = some .rdspsr := by decide
theorem test_decode_wrspsr : decodeTableWord 16 0b01001_0000_000_0_000 = some .wrspsr := by decide
theorem test_decode_restore : decodeTableWord 16 0b01010_0000_000_0_000 = some .restore := by decide
theorem test_decode_mrgspsrf : decodeTableWord 16 0b01011_0000_000_0_000 = some .mrgspsrf := by decide
theorem test_decode_rdlow : decodeTableWord 16 0b10000_1011_000_0_000 = some (.rdlow 3) := by decide
theorem test_decode_wrlow : decodeTableWord 16 0b10001_0110_000_0_000 = some (.wrlow 6) := by decide
theorem test_decode_rdhigh : decodeTableWord 16 0b10010_0101_000_0_000 = some (.rdhigh 5) := by decide
theorem test_decode_wrhigh : decodeTableWord 16 0b10011_1110_000_0_000 = some (.wrhigh 6) := by decide
theorem test_decode_rdarch : decodeTableWord 16 0b10100_1101_000_0_000 = some (.rdarch 13) := by decide
theorem test_decode_wrarch : decodeTableWord 16 0b10101_1000_000_0_000 = some (.wrarch 8) := by decide
theorem test_decode_rdsp : decodeTableWord 16 0b10110_0000_000_0_000 = some .rdsp := by decide
theorem test_decode_wrsp : decodeTableWord 16 0b10111_0000_000_0_000 = some .wrsp := by decide
theorem test_decode_rdlr : decodeTableWord 16 0b11000_0000_000_0_000 = some .rdlr := by decide
theorem test_decode_wrlr : decodeTableWord 16 0b11001_0000_000_0_000 = some .wrlr := by decide
theorem test_decode_rdpc : decodeTableWord 16 0b11010_0000_000_0_000 = some .rdpc := by decide
theorem test_decode_wrpc : decodeTableWord 16 0b11011_0000_000_0_000 = some .wrpc := by decide
theorem test_decode_add : decodeTableWord 16 0b11100_0000_000_1_000 = some .add := by decide
theorem test_decode_sub : decodeTableWord 16 0b11101_0000_000_0_000 = some .sub := by decide
theorem test_decode_adc : decodeTableWord 16 0b11110_0000_000_1_000 = some (.adc true) := by decide
theorem test_decode_sbc : decodeTableWord 16 0b11111_1111_111_0_111 = some (.sbc false) := by decide

/-- 95_test_vectors.md 2.7: the ends of the reserved range, and SETMODE with code 7 beside the nearest accepted word. -/
theorem test_decode_reserved :
    errorOf 0x6000 = some .reservedOpcode ∧ errorOf 0x7FFF = some .reservedOpcode ∧
    errorOf 0x0870 = some .reservedModeCode ∧ errorOf 0x0860 = none ∧ errorOf 0x5800 = none ∧ errorOf 0x8000 = none := by
  decide

/-- 95_test_vectors.md 3: command words of programs P1, P2 and P5. -/
theorem test_encode_program_words :
    encode (.setmode 2) = 0x0820 ∧ encode (.wrlow 5) = 0x8A80 ∧ encode (.rdhigh 5) = 0x9280 ∧
    encode (.rdarch 13) = 0xA680 ∧ encode (.wrarch 8) = 0xAC00 ∧ encode (.adc true) = 0xF008 := by decide

/-! ### One step each (95_test_vectors.md 2; the examples of the rules) -/

theorem test_curmode_svc : nextIs (exec .curmode (fresh .SVC 0 0)) (fun t => t.Y == some 3 && t.F == none) = true := by
  decide
theorem test_setmode_irq : nextIs (exec (.setmode 2) (fresh .User 0 0)) (fun t => t.CPSR.mode = .IRQ && t.Y == none) =
    true := by decide
theorem test_setmode_code7_is_refused :
    refusedIs (step ((fresh .SVC 0 0).withFetchWord 16 0x0870)) (.reservedModeCode 0x0870) = true := by decide
theorem test_bank1314_abt : nextIs (exec .bank1314 (fresh .ABT 0 0)) (fun t => t.Y == some 4) = true := by decide
theorem test_bank812_fiq_und :
    (nextIs (exec .bank812 (fresh .FIQ 0 0)) (fun t => t.Y == some 1) &&
      nextIs (exec .bank812 (fresh .UND 0 0)) (fun t => t.Y == some 0)) = true := by decide
theorem test_spsridx_system_is_none : nextIs (exec .spsridx (fresh .System 0 0)) (fun t => t.Y == some 7) = true := by
  decide
theorem test_pack_r60_example :
    nextIs (exec .pack { fresh .SVC 0 0 with CPSR := ⟨.SVC, true, false, true, false, 6⟩ })
      (fun t => t.Y == some 0xA00000D3) = true := by decide
theorem test_unpack_r61_example :
    nextIs (exec .unpack (fresh .User 0x6000001F 0)) (fun t => t.CPSR = ⟨.System, false, true, true, false, 0⟩) =
      true := by decide
theorem test_unpack_mode_0x14_faults :
    faultIs (exec .unpack (fresh .IRQ 0x14 0)) (.invalidModeField 0 0x14) = true := by decide
theorem test_wrflags_keeps_ctl_and_mode :
    nextIs (exec .wrflags { fresh .FIQ 0x9FFFFFFF 0 with CPSR := ⟨.FIQ, false, true, false, true, 5⟩ })
      (fun t => t.CPSR = ⟨.FIQ, true, false, false, true, 5⟩) = true := by decide
theorem test_rdspsr_user_is_pack :
    nextIs (exec .rdspsr { fresh .User 0 0 with CPSR := ⟨.User, true, false, false, false, 0⟩ })
      (fun t => t.Y == some 0x80000010) = true := by decide
theorem test_wrspsr_svc :
    nextIs (exec .wrspsr (fresh .SVC 0x600000D0 0)) (fun t => t.SPSR == #v[0, 0, 0x600000D0, 0, 0]) = true := by decide
theorem test_wrspsr_user_has_no_effect :
    nextIs (exec .wrspsr (fresh .User 0x600000D0 0)) (fun t => t = fresh .User 0x600000D0 0) = true := by decide
theorem test_restore_irq :
    nextIs (exec .restore { fresh .IRQ 0 0 with SPSR := #v[0, 0x2000001F, 0, 0, 0] })
      (fun t => t.CPSR = ⟨.System, false, false, true, false, 0⟩ && t.SPSR == #v[0, 0x2000001F, 0, 0, 0]) = true := by
  decide
theorem test_restore_unwritten_faults : faultIs (exec .restore (fresh .IRQ 0 0)) (.invalidModeField 0 0) = true := by
  decide
theorem test_mrgspsrf_abt :
    nextIs (exec .mrgspsrf { fresh .ABT 0xA0000000 0 with SPSR := #v[0, 0, 0, 0x12345678, 0] })
      (fun t => t.SPSR == #v[0, 0, 0, 0xA2345678, 0]) = true := by decide
theorem test_rdlow_ignores_sel3 :
    nextIs (step ({ fresh .SVC 0 0 with R0_7 := #v[0, 0, 0, 0xDEADBEEF, 0, 0, 0, 0] }.withFetchWord 16 0x8580))
      (fun t => t.Y == some 0xDEADBEEF) = true := by decide
theorem test_wrlow_last : nextIs (exec (.wrlow 7) (fresh .FIQ 9 0)) (fun t => t.R0_7 == #v[0, 0, 0, 0, 0, 0, 0, 9]) =
    true := by decide
theorem test_rdhigh_5_is_fiq_sp :
    nextIs (exec (.rdhigh 5) { fresh .FIQ 0 0 with R13_14 := #v[#v[1, 1], #v[2, 3], #v[1, 1], #v[1, 1], #v[1, 1], #v[1, 1]] })
      (fun t => t.Y == some 2) = true := by decide
theorem test_wrhigh_6_is_irq_lr :
    nextIs (exec (.wrhigh 6) (fresh .IRQ 0x08000004 0)) (fun t => t.R13_14[2] == #v[0, 0x08000004] && t.R13_14[0] == #v[0, 0]) =
      true := by decide
theorem test_wrhigh_0_in_irq_is_normal_bank :
    nextIs (exec (.wrhigh 0) (fresh .IRQ 0x11111111 0))
      (fun t => t.R8_12 == #v[#v[0x11111111, 0, 0, 0, 0], #v[0, 0, 0, 0, 0]]) = true := by decide
theorem test_rdarch_wide_selector_is_reduced :
    nextIs (exec (.rdarch 31) { fresh .SVC 0 0 with PC := 0x08000001 }) (fun t => t.Y == some 0x08000001) = true := by
  decide
theorem test_wrarch_und_r14 :
    nextIs (exec (.wrarch 14) (fresh .UND 0x10 0)) (fun t => t.R13_14[5] == #v[0, 0x10]) = true := by decide
theorem test_wrsp_user_is_system_slot :
    nextIs (exec .wrsp (fresh .System 0x3000 0)) (fun t => readReg (setMode .User t) 13 == 0x3000) = true := by decide
theorem test_rdsp_svc :
    nextIs (exec .rdsp { fresh .SVC 0 0 with R13_14 := #v[#v[1, 1], #v[1, 1], #v[1, 1], #v[2, 3], #v[1, 1], #v[1, 1]] })
      (fun t => t.Y == some 2) = true := by decide
theorem test_rdlr_svc :
    nextIs (exec .rdlr { fresh .SVC 0 0 with R13_14 := #v[#v[1, 1], #v[1, 1], #v[1, 1], #v[2, 3], #v[1, 1], #v[1, 1]] })
      (fun t => t.Y == some 3) = true := by decide
theorem test_wrlr_irq : nextIs (exec .wrlr (fresh .IRQ 0x08000130 0)) (fun t => t.R13_14[2] == #v[0, 0x08000130]) =
    true := by decide
theorem test_rdpc_after_reset : nextIs (exec .rdpc (fresh .User 0 0)) (fun t => t.Y == some 0) = true := by decide
theorem test_wrpc_keeps_bit0 : nextIs (exec .wrpc (fresh .User 0x08000001 0)) (fun t => t.PC == 0x08000001) = true := by
  decide
theorem test_add_overflow :
    nextIs (exec .add (fresh .SVC 0x7FFFFFFF 1)) (fun t => t.Y == some 0x80000000 && t.F == some 0b1001) = true := by decide
theorem test_add_carry :
    nextIs (exec .add (fresh .SVC 0xFFFFFFFF 1)) (fun t => t.Y == some 0 && t.F == some 0b0110) = true := by decide
theorem test_sub_overflow :
    nextIs (exec .sub (fresh .SVC 0x80000000 1)) (fun t => t.Y == some 0x7FFFFFFF && t.F == some 0b0011) = true := by decide
theorem test_sub_borrow :
    nextIs (exec .sub (fresh .SVC 0 1)) (fun t => t.Y == some 0xFFFFFFFF && t.F == some 0b1000) = true := by decide
theorem test_adc_carry_chain :
    nextIs (exec (.adc true) (fresh .SVC 0xFFFFFFFF 0)) (fun t => t.Y == some 0 && t.F == some 0b0110) = true := by decide
theorem test_adc_overflow_from_carry_in :
    nextIs (exec (.adc true) (fresh .SVC 0x7FFFFFFF 0)) (fun t => t.Y == some 0x80000000 && t.F == some 0b1001) = true := by
  decide
theorem test_sbc_borrow_in :
    nextIs (exec (.sbc false) (fresh .SVC 0x80000000 1)) (fun t => t.Y == some 0x7FFFFFFE && t.F == some 0b0011) = true := by
  decide
theorem test_sbc_of_zeros :
    nextIs (exec (.sbc false) (fresh .SVC 0 0)) (fun t => t.Y == some 0xFFFFFFFF && t.F == some 0b1000) = true := by decide

/-- Program P5 of 95_test_vectors.md, lines 9 and 10: after the fault the mode is still IRQ and the mark stands. -/
theorem test_run_goes_on_past_a_fault :
    let r := advanceBy 2 ⟨{ fresh .IRQ 0 0 with pending := [asm .restore 0 0, asm .curmode 0 0] }, [], []⟩
    r.state.Y = some 2 ∧ r.faults = [.invalidModeField 0x5000 0] ∧ r.refusals = [] := by decide

/-- D7's other policy: the flags and `ctl` are installed and the mode stays. -/
theorem test_keepMode_policy :
    nextIs (exec .unpack { fresh .IRQ 0xF0000020 0 with invalidMPolicy := .keepMode })
      (fun t => t.CPSR = ⟨.IRQ, true, true, true, true, 1⟩) = true := by decide

/-- R131: the mode after RESET is the instance's own parameter. -/
theorem test_reset_input_uses_reset_mode :
    nextIs (step { fresh .UND 0 0 with PC := 5, CPSR := Cpsr.reset .FIQ, pending := [.reset] })
      (fun t => t.PC == 0 && t.CPSR.mode = .UND) = true := by decide

/-! ### Witnesses: a state and operands that meet each statement's hypotheses, at the ends of their ranges -/

/-- A run about to serve one command. -/
def runOf (c : Command) : Run := ⟨{ fresh .SVC 0 0 with pending := [.command c] }, [], []⟩

theorem witness_DecodeOfEncodeGivesTheOperation : (Instr.wrarch 15).WellFormed ∧ (Instr.setmode 6).WellFormed := by decide
theorem witness_EncodeOfDecodeClearsOnlyUnusedBits : decode 0xFFFF = .ok (.sbc true) := by rfl
theorem witness_UnusedFieldsDoNotMatter :
    0x0820#16 &&& usedBits ((0x0820#16).extractLsb' 11 5) = 0x0FA7#16 &&& usedBits ((0x0FA7#16).extractLsb' 11 5) := by
  decide
theorem witness_UnusedFieldsDoNotMatter_stops :
    faultIs (step { fresh .SVC 0 0 with pending := [.command ⟨0x3000, 0, 0⟩] }) (.invalidModeField 0x3000 0) = true ∧
    refusedIs (step { fresh .SVC 0 0 with pending := [.command ⟨0x6000, 0, 0⟩] }) (.reservedOpcode 0x6000) = true := by
  decide
theorem witness_ReservedOpcodesAreRefused :
    (runOf ⟨0x6000, 0, 0⟩).state.pending = [.command ⟨0x6000, 0, 0⟩] ∧
    0x0C ≤ ((0x6000#16).extractLsb' 11 5).toNat ∧ ((0x7FFF#16).extractLsb' 11 5).toNat ≤ 0x0F := by decide
theorem witness_ModeOperandNamesAModeOrIsRefused :
    (runOf ⟨0x0870, 0, 0⟩).state.pending = [.command ⟨0x0870, 0, 0⟩] ∧ (0x0870#16).extractLsb' 11 5 = 0x01 ∧
    (0x0870#16).extractLsb' 4 3 = 7 ∧
    [Mode.User, .FIQ, .IRQ, .SVC, .ABT, .UND, .System][((0x0860#16).extractLsb' 4 3).toNat]? = some .System := by
  refine ⟨rfl, ?_⟩
  decide
theorem witness_StepRunsTheDecodedCommand :
    (runOf ⟨0xD800, 4, 0⟩).state.pending = [.command ⟨0xD800, 4, 0⟩] ∧ decode 0xD800 = .ok .wrpc := ⟨rfl, rfl⟩
theorem witness_StepWithNothingPendingIsIdle : State.reset.pending = [] := rfl
theorem witness_TwoCommandsAtOnceAreRefused :
    ({ fresh .SVC 0 0 with pending := [.concurrent ⟨0, 0, 0⟩ ⟨0x2800, 0, 0⟩] } : State).pending =
      .concurrent ⟨0, 0, 0⟩ ⟨0x2800, 0, 0⟩ :: [] := rfl
theorem witness_CommandsStopExactlyWhereStated :
    (runOf ⟨0x3000, 0x14, 0⟩).state.pending = [.command ⟨0x3000, 0x14, 0⟩] ∧
    (runOf ⟨0x3000, 0x14, 0⟩).state.invalidMPolicy = .fault ∧
    faultIs (step (runOf ⟨0x3000, 0x14, 0⟩).state) (.invalidModeField 0x3000 0x14) = true ∧
    faultIs (step (runOf ⟨0x5000, 0, 0⟩).state) (.invalidModeField 0x5000 0) = true ∧
    refusedIs (step (runOf ⟨0x7800, 0, 0⟩).state) (.reservedOpcode 0x7800) = true ∧
    refusedIs (step (runOf ⟨0x0870, 0, 0⟩).state) (.reservedModeCode 0x0870) = true := by
  refine ⟨rfl, rfl, ?_⟩
  decide
theorem witness_ResetMakesAFreshInstance :
    ({ fresh .SVC 0 0 with pending := [.reset] } : State).pending = .reset :: [] := rfl
theorem witness_StatusWordAfterResetIsTheModeField :
    ((0x10 : BitVec 5), Mode.User) ∈ modeFields ∧ ((0x1F : BitVec 5), Mode.System) ∈ modeFields := by decide
theorem witness_StepKeepsTheParameters :
    ∃ t, step { fresh .SVC 0 0 with pending := [.reset] } = .next t := ⟨_, rfl⟩
theorem witness_StepKeepsOutputsInAgreement :
    OutputsAgree (fresh .SVC 1 2) ∧ ∃ t, step ((fresh .SVC 1 2).withFetchWord 16 0xE000) = .next t := by
  refine ⟨?_, ⟨_, rfl⟩⟩
  intro f hf
  cases hf
theorem witness_UnreadOperandsDoNotMatter :
    readsA .pack = false ∧ readsB .wrpc = false ∧ (∃ t, exec .pack (fresh .SVC 0 0) = .next t) ∧
    (∃ t, exec .wrpc (fresh .SVC 0 0) = .next t) ∧
    readsA .restore = false ∧ faultIs (exec .restore (fresh .SVC 0 0)) (.invalidModeField 0 0) = true ∧
    readsA (.setmode 7) = false ∧ refusedIs (exec (.setmode 7) (fresh .SVC 0 0)) (.reservedModeCode 0) = true :=
  ⟨rfl, rfl, ⟨_, rfl⟩, ⟨_, rfl⟩, rfl, by decide, rfl, by decide⟩
theorem witness_SetmodeWritesOnlyTheMode :
    [Mode.User, .FIQ, .IRQ, .SVC, .ABT, .UND, .System][(0 : BitVec 3).toNat]? = some .User ∧
    [Mode.User, .FIQ, .IRQ, .SVC, .ABT, .UND, .System][(6 : BitVec 3).toNat]? = some .System ∧
    [Mode.User, .FIQ, .IRQ, .SVC, .ABT, .UND, .System][(7 : BitVec 3).toNat]? = none := by decide
theorem witness_UnpackInstallsTheWordOrFaults :
    ((fresh .SVC 0x10 0).A.extractLsb' 0 5, Mode.User) ∈ modeFields ∧
    ((fresh .SVC 0xFFFFFFFF 0).A.extractLsb' 0 5, Mode.System) ∈ modeFields ∧
    ¬ ValidModeField (fresh .SVC 0x14 0).A ∧ (fresh .SVC 0x14 0).invalidMPolicy = .fault := by
  refine ⟨by decide, by decide, ?_, rfl⟩
  unfold ValidModeField
  decide
theorem witness_KeepModePolicyLeavesTheMode :
    let s : State := { State.resetWith .IRQ .keepMode with A := 0x8000001E }
    s.invalidMPolicy = .keepMode ∧ ¬ ValidModeField s.A ∧ (s.CPSR.mode, (1 : Fin 5)) ∈ spsrSlots ∧
    ¬ ValidModeField s.SPSR[1] := by
  unfold ValidModeField
  decide
theorem witness_PackAndUnpackRoundTrip :
    (∃ t, exec .pack (fresh .SVC 0x1B 0) = .next t ∧ t.Y = some 0x13) ∧ ValidModeField (fresh .SVC 0x1B 0).A := by
  refine ⟨⟨_, rfl, by decide⟩, ?_⟩
  unfold ValidModeField
  decide
theorem witness_WrflagsIsUnpackOfTheMergedWord :
    ∃ t, exec .pack (fresh .SVC 0xF0000000 0) = .next t ∧ t.Y = some 0x13 := ⟨_, rfl, by decide⟩
theorem witness_ModeChangeOnlyRedirects :
    ∃ t, exec (.setmode 1) (fresh .User 0 0) = .next t ∧ (t.CPSR.mode, (0 : Fin 5)) ∈ spsrSlots := ⟨_, rfl, by decide⟩
theorem witness_ModeChangeOnlyRedirects_to_User :
    ∃ t, exec (.setmode 0) (fresh .SVC 0 0) = .next t ∧ userOrSystem t.CPSR.mode = true := ⟨_, rfl, by decide⟩
theorem witness_NoOperationIsStoppedForUserMode :
    ∃ t, exec .wrspsr (setMode .SVC (fresh .User 1 0)) = .next t := ⟨_, rfl⟩
theorem witness_saved_status_clauses :
    ((fresh .FIQ 0 0).CPSR.mode, (0 : Fin 5)) ∈ spsrSlots ∧ ((fresh .UND 0 0).CPSR.mode, (4 : Fin 5)) ∈ spsrSlots ∧
    userOrSystem (fresh .User 0 0).CPSR.mode = true ∧ userOrSystem (fresh .System 0 0).CPSR.mode = true := by decide
theorem witness_RestoreInstallsTheSavedWordOrNothing :
    let s : State := { fresh .SVC 0 0 with SPSR := #v[0, 0, 0x30000012, 0, 0] }
    (s.CPSR.mode, (2 : Fin 5)) ∈ spsrSlots ∧ (s.SPSR[2].extractLsb' 0 5, Mode.IRQ) ∈ modeFields ∧
    ((fresh .FIQ 0 0).CPSR.mode, (0 : Fin 5)) ∈ spsrSlots ∧ ¬ ValidModeField (fresh .FIQ 0 0).SPSR[0] ∧
    (fresh .FIQ 0 0).invalidMPolicy = .fault := by
  unfold ValidModeField
  decide
theorem witness_SavedStatusChangesOnlyByItsWriters :
    (∃ t, exec .wrspsr (fresh .SVC 1 0) = .next t) ∧ ((fresh .SVC 1 0).CPSR.mode, (1 : Fin 5)) ∉ spsrSlots ∧
    (∃ t, exec .pack (fresh .SVC 1 0) = .next t) := ⟨⟨_, rfl⟩, by decide, ⟨_, rfl⟩⟩
theorem witness_LowPortIsUnbanked : 0 % 8 = (0 : Fin 8).val ∧ 15 % 8 = (7 : Fin 8).val := by decide
theorem witness_HighPortUsesTheBankOfTheRegister :
    (1 : Fin 2) = bank812 (fresh .FIQ 0 0).CPSR.mode ∧ (5 : Fin 6) = bank1314 (fresh .UND 0 0).CPSR.mode ∧
    8 % 8 = (0 : Fin 5).val ∧ 4 % 8 = (4 : Fin 5).val ∧ 5 % 8 = 5 + (0 : Fin 2).val ∧ 6 % 8 = 5 + (1 : Fin 2).val ∧
    7 % 8 = 7 := by decide
theorem witness_ArchPortDispatchesByRegister :
    (0 : Fin 2) = bank812 (fresh .User 0 0).CPSR.mode ∧ (0 : Fin 6) = bank1314 (fresh .System 0 0).CPSR.mode ∧
    16 % 16 = (0 : Fin 8).val ∧ 7 % 16 = (7 : Fin 8).val ∧ 8 % 16 = 8 + (0 : Fin 5).val ∧ 12 % 16 = 8 + (4 : Fin 5).val ∧
    29 % 16 = 13 + (0 : Fin 2).val ∧ 14 % 16 = 13 + (1 : Fin 2).val ∧ 15 % 16 = 15 := by decide
theorem witness_NamedPortsReachSpLrAndPc : (2 : Fin 6) = bank1314 (fresh .IRQ 0 0).CPSR.mode := by decide
theorem witness_ReadAfterWriteSeesTheWrite : (15 < 16) ∧ (0 < 16) := by decide
theorem witness_OnlyListedOperationsWrite :
    (∃ t, exec (.wrhigh 5) (fresh .FIQ 7 0) = .next t) ∧ writtenReg (.wrhigh 5) = some 13 ∧
    Hidden (fresh .FIQ 7 0) (.spLr 0 0) ∧ (∀ r, writtenReg (.wrhigh 5) = some r → Slot.pc ≠ slotOf .FIQ (archSel r)) := by
  refine ⟨⟨_, rfl⟩, rfl, ?_, ?_⟩
  · unfold Hidden; decide
  · intro r hr
    cases hr
    decide
theorem witness_OnlyListedOperationsWrite_SPSR :
    nextIs (exec .mrgspsrf { fresh .SVC 0xF0000000 0 with SPSR := #v[1, 1, 1, 1, 1] })
      (fun t => t.SPSR == #v[1, 1, 0xF0000001, 1, 1]) = true ∧
    ((fresh .SVC 0 0).CPSR.mode, (0 : Fin 5)) ∉ spsrSlots ∧ ((fresh .User 0 0).CPSR.mode, (4 : Fin 5)) ∉ spsrSlots := by
  decide
theorem witness_HiddenBanksAreUnobservable :
    AgreeWhereVisible (fresh .SVC 7 0) { fresh .SVC 7 0 with SPSR := #v[9, 9, 0, 9, 9] } ∧
    fresh .SVC 7 0 ≠ { fresh .SVC 7 0 with SPSR := #v[9, 9, 0, 9, 9] } ∧
    ∃ t, exec .rdspsr (fresh .SVC 7 0) = .next t := by
  refine ⟨⟨rfl, ?_, ?_, ?_⟩, by decide, ⟨_, rfl⟩⟩
  · unfold SameSurroundings; decide
  · decide
  · decide
theorem witness_AluIsPure :
    (fresh .User 3 4).A = (fresh .FIQ 3 4).A ∧ (fresh .User 3 4).B = (fresh .FIQ 3 4).B ∧
    fresh .User 3 4 ≠ fresh .FIQ 3 4 := by decide
theorem witness_exception_entry_and_return :
    (Mode.FIQ, (0 : Fin 5)) ∈ spsrSlots ∧ (Mode.UND, (4 : Fin 5)) ∈ spsrSlots ∧ (5 : Fin 6) = bank1314 .UND ∧
    Mode.FIQ ≠ .UND ∧ userOrSystem .System = true ∧ userOrSystem .User = true := by decide
theorem witness_EntryAndReturnOperationsAreTheSequences :
    (∃ t, Host.Core.run core 5 { fresh .User 0 0 with pending := enterRequests .IRQ (packStatus (fresh .User 0 0).CPSR) 4 0x18 } = .next t) ∧
    (∃ t, Host.Core.run core 3
      { fresh .IRQ 0 0 with SPSR := #v[0, 0x10, 0, 0, 0], pending := leaveRequests (readReg (fresh .IRQ 0 0) 14) 4 } = .next t) :=
  ⟨⟨_, rfl⟩, ⟨_, rfl⟩⟩
theorem witness_BootSetsStatusStacksAndEntry :
    ((0x8000001F : Word).extractLsb' 0 5, Mode.System) ∈ modeFields ∧
    [(Mode.IRQ, (0x1000 : Word)), (.SVC, 0x2000)].Pairwise (fun p q => bank1314 p.1 ≠ bank1314 q.1) := by decide
theorem witness_BootMayUseSetmode :
    ((0x80000010 : Word).extractLsb' 0 5, Mode.User) ∈ modeFields ∧
    [(Mode.System, (0x1000 : Word)), (.UND, 0x2000)].Pairwise (fun p q => bank1314 p.1 ≠ bank1314 q.1) ∧
    (∃ t, Host.Core.run core 7 ((fresh .UND 0 0).withPending
      (bootSequence (asm (.setmode 0) 0 0) (asm .unpack 0x80000010 0) [(.System, 0x1000), (.UND, 0x2000)] 8)) = .next t) :=
  ⟨by decide, by decide, ⟨_, rfl⟩⟩
theorem witness_BusAccessesAreLittleEndian : busWf [] = true := rfl
theorem witness_BusAccessesAreLittleEndian_clauses : busStated 0 4 = true ∧ busStated 2 2 = true := by
  have h2 : 2 ≤ Config.addrWidth := by unfold Config.addrWidth; omega
  have h : 2 ^ 2 ≤ 2 ^ Config.addrWidth := Nat.pow_le_pow_right (by decide) h2
  simp only [busStated]
  constructor <;> simp <;> omega

end Sys2Proof.Tests
end

section
/-! PROOFS. The sharing of register slots between modes (10_state.md R21), row by row of the slot map (R80). -/

namespace Sys2Proof.Machine

/-- The four rows of R80: every register number is one of these. -/
theorem register_cases (r : Fin 16) :
    (∃ i : Fin 8, r = ⟨i.val, by omega⟩) ∨ (∃ j : Fin 5, r = ⟨8 + j.val, by omega⟩) ∨
      (∃ k : Fin 2, r = ⟨13 + k.val, by omega⟩) ∨ r = 15 := by
  by_cases hlow : r.val < 8
  · exact .inl ⟨⟨r.val, hlow⟩, rfl⟩
  by_cases hmid : r.val < 13
  · exact .inr (.inl ⟨⟨r.val - 8, by omega⟩, Fin.ext (by dsimp only; omega)⟩)
  by_cases hspLr : r.val < 15
  · exact .inr (.inr (.inl ⟨⟨r.val - 13, by omega⟩, Fin.ext (by dsimp only; omega)⟩))
  · exact .inr (.inr (.inr (Fin.ext (by change r.val = 15; omega))))

/-! ### Which modes have the same bank -/

theorem bank812_eq_ite (m : Mode) : bank812 m = if m = .FIQ then 1 else 0 := by cases m <;> rfl

theorem bank812_eq_iff {m m' : Mode} : bank812 m = bank812 m' ↔ m = m' ∨ (m ≠ .FIQ ∧ m' ≠ .FIQ) := by
  by_cases h : m = .FIQ <;> by_cases h' : m' = .FIQ <;> simp [bank812_eq_ite, h, h', Ne.symm]

/-- User and System are the only two modes that share a bank of `R13_14`. -/
theorem bank1314_eq_iff {m m' : Mode} :
    bank1314 m = bank1314 m' ↔ m = m' ∨ (userOrSystem m = true ∧ userOrSystem m' = true) := by
  cases m <;> cases m' <;> decide

theorem ne_FIQ_of_userOrSystem {m : Mode} (h : userOrSystem m = true) : m ≠ .FIQ := by
  rintro rfl
  cases h

/-! ### R21's sharing, row by row -/

theorem sharesSlot_low (m m' : Mode) (i : Fin 8) : sharesSlot m m' i.val = true := by
  simp [sharesSlot]

theorem sharesSlot_mid_iff {m m' : Mode} (j : Fin 5) :
    sharesSlot m m' (8 + j.val) = true ↔ m = m' ∨ (m ≠ .FIQ ∧ m' ≠ .FIQ) := by
  have hpc : 8 + j.val ≠ 15 := by omega
  have hmid : 8 + j.val ≤ 12 := by omega
  have hus : userOrSystem m = true ∧ userOrSystem m' = true → m ≠ .FIQ ∧ m' ≠ .FIQ :=
    And.imp ne_FIQ_of_userOrSystem ne_FIQ_of_userOrSystem
  simp [sharesSlot, hpc, hmid, or_assoc, or_iff_right_of_imp hus]

theorem sharesSlot_spLr_iff {m m' : Mode} (k : Fin 2) :
    sharesSlot m m' (13 + k.val) = true ↔ m = m' ∨ (userOrSystem m = true ∧ userOrSystem m' = true) := by
  have hlow : ¬ 13 + k.val < 8 := by omega
  have hpc : 13 + k.val ≠ 15 := by omega
  have hmid : ¬ 13 + k.val ≤ 12 := by omega
  simp [sharesSlot, hlow, hpc, hmid]

theorem sharesSlot_pc (m m' : Mode) : sharesSlot m m' 15 = true := rfl

/-- Settles O38: in each row of R80 the two slots agree exactly when the two banks do, and R21 says when that is. -/
theorem modesShareSlotsAsStated : Obligations.ModesShareSlotsAsStated := by
  intro m m' r
  obtain ⟨i, rfl⟩ | ⟨j, rfl⟩ | ⟨k, rfl⟩ | rfl := register_cases r
  · simp only [slotOf_low, sharesSlot_low]
  · simp only [slotOf_mid, Slot.mid.injEq, and_true, bank812_eq_iff, sharesSlot_mid_iff]
  · simp only [slotOf_spLr, Slot.spLr.injEq, and_true, bank1314_eq_iff, sharesSlot_spLr_iff]
  · exact iff_of_true rfl (sharesSlot_pc m m')

end Sys2Proof.Machine
end

section
/-! PROOFS. What the decoder reads of a command word (30_encoding.md R41, R42, R45, R47, R48): the used bits of its
operation and nothing else, and the words it gives no operation. -/

namespace Sys2Proof

open Sys2Proof.Machine (usedBits)

/-! ### Each field of a masked word is that field, masked -/

theorem opField_and (w m : CmdWord) : opField (w &&& m) = opField w &&& opField m := BitVec.extractLsb'_and

theorem selField_and (w m : CmdWord) : selField (w &&& m) = selField w &&& selField m := BitVec.extractLsb'_and

theorem idxField_and (w m : CmdWord) : idxField (w &&& m) = idxField w &&& idxField m := BitVec.extractLsb'_and

theorem mdField_and (w m : CmdWord) : mdField (w &&& m) = mdField w &&& mdField m := BitVec.extractLsb'_and

theorem ciField_and (w m : CmdWord) : ciField (w &&& m) = (ciField w && ciField m) := BitVec.getLsbD_and

/-! ### The used bits of an operation contain `OP` and the field R41 gives the operation -/

theorem opField_usedBits (op : BitVec 5) : opField (usedBits op) = BitVec.allOnes 5 := by
  revert op; decide

theorem selField_usedBits (op : BitVec 5) : op.toNat = 0x14 ∨ op.toNat = 0x15 →
    selField (usedBits op) = BitVec.allOnes 4 := by
  revert op; decide

theorem idxField_usedBits (op : BitVec 5) : 0x10 ≤ op.toNat ∧ op.toNat ≤ 0x13 →
    idxField (usedBits op) = BitVec.allOnes 3 := by
  revert op; decide

theorem mdField_usedBits (op : BitVec 5) : op.toNat = 0x01 → mdField (usedBits op) = BitVec.allOnes 3 := by
  revert op; decide

theorem ciField_usedBits (op : BitVec 5) : op.toNat = 0x1E ∨ op.toNat = 0x1F → ciField (usedBits op) = true := by
  revert op; decide

/-! ### The decoder reads used bits only -/

@[simp] theorem opField_and_usedBits (w : CmdWord) (op : BitVec 5) : opField (w &&& usedBits op) = opField w := by
  rw [opField_and, opField_usedBits, BitVec.and_allOnes]

/-- R42: clearing the bits that the operation of a word does not use leaves what the word decodes to. -/
theorem decode_and_usedBits (w : CmdWord) : decode (w &&& usedBits (opField w)) = decode w := by
  unfold decode
  rw [opField_and_usedBits]
  split
  case h_2 hop => rw [mdField_and, mdField_usedBits _ hop, BitVec.and_allOnes]
  case h_13 hop | h_14 hop | h_15 hop | h_16 hop =>
    rw [idxField_and, idxField_usedBits _ (by omega), BitVec.and_allOnes]
  case h_17 hop | h_18 hop => rw [selField_and, selField_usedBits _ (by omega), BitVec.and_allOnes]
  case h_27 hop | h_28 hop => rw [ciField_and, ciField_usedBits _ (by omega), Bool.and_true]
  all_goals rfl

/-- Words with the same used bits decode alike (R42). -/
theorem decode_eq_of_usedBits {w w' : CmdWord}
    (h : w &&& usedBits (opField w) = w' &&& usedBits (opField w)) : decode w = decode w' := by
  have hop : opField w = opField w' := by simpa using congrArg opField h
  calc decode w = decode (w &&& usedBits (opField w)) := (decode_and_usedBits w).symm
    _ = decode (w' &&& usedBits (opField w')) := by rw [h, hop]
    _ = decode w' := decode_and_usedBits w'

/-! ### The words with no operation, and SETMODE's -/

theorem decode_of_setmode {w : CmdWord} (hop : opField w = 0x01) : decode w = decodeSetmode (mdField w) := by
  simp [decode, hop]

theorem decodeSetmode_of_ne {md : BitVec 3} (h : md ≠ 7) : decodeSetmode md = .ok (.setmode md) := if_neg h

theorem decodeSetmode_seven : decodeSetmode 7 = .error .reservedModeCode := rfl

theorem decodeSetmode_ne_setmode_seven (md : BitVec 3) : decodeSetmode md ≠ .ok (.setmode 7) := by
  by_cases hmd : md = 7
  · rw [hmd, decodeSetmode_seven]; simp
  · rw [decodeSetmode_of_ne hmd]; simpa using hmd

/-- The decoder gives no SETMODE with the mode code 7 (R45). -/
theorem decode_ne_setmode_seven (w : CmdWord) : decode w ≠ .ok (.setmode 7) := by
  intro h
  unfold decode at h
  split at h
  case h_2 => exact decodeSetmode_ne_setmode_seven _ h
  all_goals cases h

theorem decode_of_reserved {w : CmdWord} (hlo : 0x0C ≤ (opField w).toNat) (hhi : (opField w).toNat ≤ 0x0F) :
    decode w = .error .reservedOpcode := by
  unfold decode
  split
  case h_29 => rfl
  all_goals omega

/-- The decoder refuses a word only for R48's reserved `OP` and for R45's mode code. -/
theorem reserved_of_decode_error {w : CmdWord} {e : DecodeError} (h : decode w = .error e) :
    (0x0C ≤ (opField w).toNat ∧ (opField w).toNat ≤ 0x0F) ∨ (opField w = 0x01 ∧ mdField w = 7) := by
  unfold decode at h
  split at h
  case h_2 hop =>
    have hmd : mdField w = 7 := by
      by_contra hmd
      rw [decodeSetmode_of_ne hmd] at h
      cases h
    exact .inr ⟨BitVec.eq_of_toNat_eq hop, hmd⟩
  case h_29 =>
    simp only [imp_false] at *
    exact .inl (by omega)
  all_goals cases h

end Sys2Proof
end

section
/-! PROOFS. No operation reads the recorded command word: another word in its place gives the same next state but for
that word, and the same stop but for the word the stop records (30_encoding.md R42; 60_exceptions.md R116). -/

namespace Sys2Proof.Machine

/-! ### Another recorded command word, in a state and in what a step ends in -/

/-- The state with `w` as the command word last presented. -/
def State.withCmd (w : CmdWord) (s : State) : State := { s with CMD := w }

/-- The fault with `w` as the command word it records (R116). -/
def Fault.withCmd (w : CmdWord) : Fault → Fault
  | .invalidModeField _ v => .invalidModeField w v

/-- The refusal with `w` as the command word it records, where it records one command's word (R116). -/
def Refusal.withCmd (w : CmdWord) : Refusal → Refusal
  | .reservedOpcode _ => .reservedOpcode w
  | .reservedModeCode _ => .reservedModeCode w
  | .notModelled mnemonic => .notModelled mnemonic
  | .concurrentCommands c d => .concurrentCommands c d

/-- The end of a step with `w` as the recorded command word. -/
def outcomeWithCmd (w : CmdWord) : Host.Outcome State Fault Refusal → Host.Outcome State Fault Refusal
  | .next s => .next (s.withCmd w)
  | .fault f => .fault (f.withCmd w)
  | .refused r => .refused (r.withCmd w)

section
variable (w : CmdWord) (s : State)

theorem State.withCmd_CPSR : (s.withCmd w).CPSR = s.CPSR := rfl
theorem State.withCmd_invalidMPolicy : (s.withCmd w).invalidMPolicy = s.invalidMPolicy := rfl

/-! ### The shared operations carry it along -/

theorem writeReg_withCmd (r : Nat) (v : Word) :
    writeReg r v (s.withCmd w) = (writeReg r v s).withCmd w := by
  unfold writeReg
  rw [State.withCmd_CPSR]
  cases slotOf s.CPSR.mode (archSel r) <;> rfl

theorem writeSavedStatus_withCmd (v : Word) :
    writeSavedStatus v (s.withCmd w) = (writeSavedStatus v s).withCmd w := by
  unfold writeSavedStatus
  rw [State.withCmd_CPSR]
  cases spsrIndex s.CPSR.mode <;> rfl

theorem mergeSavedFlags_withCmd (v : Word) :
    mergeSavedFlags v (s.withCmd w) = (mergeSavedFlags v s).withCmd w := by
  unfold mergeSavedFlags
  rw [State.withCmd_CPSR]
  cases spsrIndex s.CPSR.mode <;> rfl

theorem installStatus_withCmd (v : Word) :
    installStatus v (s.withCmd w) = outcomeWithCmd w (installStatus v s) := by
  unfold installStatus
  rw [State.withCmd_invalidMPolicy]
  cases decodeM (v.extractLsb' 0 5) with
  | some m => rfl
  | none => cases s.invalidMPolicy <;> rfl

theorem restoreSavedStatus_withCmd :
    restoreSavedStatus (s.withCmd w) = outcomeWithCmd w (restoreSavedStatus s) := by
  unfold restoreSavedStatus
  rw [State.withCmd_CPSR]
  cases spsrIndex s.CPSR.mode with
  | none => rfl
  | some k => exact installStatus_withCmd w s _

theorem execSetmode_withCmd (md : BitVec 3) :
    execSetmode md (s.withCmd w) = outcomeWithCmd w (execSetmode md s) := by
  unfold execSetmode
  cases modeOfCode md <;> rfl

/-- No operation reads the recorded command word. -/
theorem exec_withCmd (i : Instr) : exec i (s.withCmd w) = outcomeWithCmd w (exec i s) := by
  cases i
  case setmode md => exact execSetmode_withCmd w s md
  case unpack => exact installStatus_withCmd w s s.A
  case restore => exact restoreSavedStatus_withCmd w s
  case wrspsr => exact congrArg driveNone (writeSavedStatus_withCmd w s s.A)
  case mrgspsrf => exact congrArg driveNone (mergeSavedFlags_withCmd w s s.A)
  case wrlow | wrhigh | wrarch | wrsp | wrlr | wrpc => exact congrArg driveNone (writeReg_withCmd w s _ s.A)
  all_goals rfl

end

/-! ### Which operations are refused -/

theorem installStatus_ne_refused (v : Word) (s : State) (q : Refusal) : installStatus v s ≠ .refused q := by
  obtain ⟨m, -, h⟩ | ⟨-, -, h⟩ | ⟨-, -, h⟩ := installStatus_cases v s <;> simp [h]

theorem restoreSavedStatus_ne_refused (s : State) (q : Refusal) : restoreSavedStatus s ≠ .refused q := by
  obtain ⟨-, h⟩ | ⟨k, -, h⟩ := restoreSavedStatus_cases s
  · simp [h]
  · rw [h]; exact installStatus_ne_refused _ s q

theorem execSetmode_of_some {md : BitVec 3} {m : Mode} (h : modeOfCode md = some m) (s : State) :
    execSetmode md s = .next ((setMode m s).withOutputs none none) := by
  simp [execSetmode, h, driveNone]

/-- The only operation an execution refuses is SETMODE with the code that names no mode (R45, R56). -/
theorem eq_setmode_seven_of_exec_refused {i : Instr} {s : State} {q : Refusal} (h : exec i s = .refused q) :
    i = .setmode 7 := by
  cases i
  case setmode md =>
    cases hm : modeOfCode md with
    | none => rw [modeOfCode_eq_none.1 hm]
    | some m => cases h.symm.trans (execSetmode_of_some hm s)
  case unpack => exact absurd h (installStatus_ne_refused s.A s q)
  case restore => exact absurd h (restoreSavedStatus_ne_refused s q)
  all_goals cases h

end Sys2Proof.Machine
end

section
/-! PROOFS. One presented command (30_encoding.md R42, R45, R48): the step it makes, and what a run keeps of a refusal. -/

namespace Sys2Proof.Machine

/-! ### The step of one presented command -/

theorem step_of_command {s : State} {c : Command} {rest : List Request} (h : s.pending = .command c :: rest) :
    step s = issue c (s.withPending rest) := by
  simp [step, h, serve]

theorem issue_of_ok {c : Command} {i : Instr} (h : decode c.cmd = .ok i) (s : State) :
    issue c s = exec i (s.withInputs c) := by
  simp [issue, h]

theorem issue_of_error {c : Command} {e : DecodeError} (h : decode c.cmd = .error e) (s : State) :
    issue c s = .refused (refusalOf c.cmd e) := by
  simp [issue, h]

/-- A command is refused only for a reserved `OP` or for SETMODE with the mode code 7 (R42, R45, R48). -/
theorem reserved_of_issue_refused {c : Command} {s : State} {q : Refusal} (h : issue c s = .refused q) :
    (0x0C ≤ (opField c.cmd).toNat ∧ (opField c.cmd).toNat ≤ 0x0F) ∨ (opField c.cmd = 0x01 ∧ mdField c.cmd = 7) := by
  cases hd : decode c.cmd with
  | error e => exact reserved_of_decode_error hd
  | ok i =>
    rw [issue_of_ok hd] at h
    cases eq_setmode_seven_of_exec_refused h
    exact absurd hd (decode_ne_setmode_seven c.cmd)

/-- Words that decode alike are issued alike, but for the command word recorded. -/
theorem issue_of_decode_eq {w w' : CmdWord} (h : decode w = decode w') (a b : Word) (s : State) :
    issue ⟨w', a, b⟩ s = outcomeWithCmd w' (issue ⟨w, a, b⟩ s) := by
  cases hd : decode w with
  | error e =>
    rw [issue_of_error (c := ⟨w, a, b⟩) hd, issue_of_error (c := ⟨w', a, b⟩) (h ▸ hd)]
    cases e <;> rfl
  | ok i =>
    rw [issue_of_ok (c := ⟨w, a, b⟩) hd, issue_of_ok (c := ⟨w', a, b⟩) (h ▸ hd)]
    exact exec_withCmd w' (s.withInputs ⟨w, a, b⟩) i

/-- Settles O3: the words decode alike, and an operation never reads the recorded command word. -/
theorem unusedFieldsDoNotMatter : Obligations.UnusedFieldsDoNotMatter := by
  intro w w' a b s rest hused x x'
  have hx : x = issue ⟨w, a, b⟩ (s.withPending rest) := step_of_command rfl
  have hx' : x' = outcomeWithCmd w' x := by
    rw [hx, ← issue_of_decode_eq (decode_eq_of_usedBits hused)]
    exact step_of_command rfl
  refine ⟨?_, ?_, ?_, ?_⟩
  · intro t ht; rw [hx', ht]; rfl
  · intro c v hf; rw [hx', hf]; rfl
  · intro r hr; rw [hx', hr]; exact ⟨_, rfl⟩
  · intro r hr; exact reserved_of_issue_refused (c := ⟨w, a, b⟩) (hx.symm.trans hr)

/-! ### A refusal in a run -/

/-- What a run keeps of a refused request: the mark, and every element of the block (R8, R116). -/
theorem advance_of_refused {r : Run} {q : Request} {rest : List Request} {x : Refusal}
    (hp : r.state.pending = q :: rest) (h : step r.state = .refused x) :
    SameBlock r.state (advance r).state ∧ (advance r).state.Y = none ∧ (advance r).state.F = none ∧
    (advance r).refusals = r.refusals ++ [x] ∧ (advance r).faults = r.faults := by
  obtain ⟨hblock, hY, hF, -⟩ := afterStop_effect r.state q rest hp
  have hadvance : advance r = { r with state := afterStop r.state, refusals := r.refusals ++ [x] } := by
    simp only [advance, h]
  rw [hadvance]
  exact ⟨hblock, hY, hF, rfl, rfl⟩

/-- Settles O4: the decoder gives a reserved `OP` no operation, and a refusal leaves the block alone. -/
theorem reservedOpcodesAreRefused : Obligations.ReservedOpcodesAreRefused := by
  intro r c rest hp hlo hhi
  have hstep : step r.state = .refused (.reservedOpcode c.cmd) := by
    rw [step_of_command hp, issue_of_error (decode_of_reserved hlo hhi)]
    rfl
  exact ⟨hstep, advance_of_refused hp hstep⟩

/-! ### SETMODE's mode operand -/

/-- R45's list of the modes is `mode_of_code`. -/
theorem modes_getElem?_eq_modeOfCode (md : BitVec 3) :
    [Mode.User, .FIQ, .IRQ, .SVC, .ABT, .UND, .System][md.toNat]? = modeOfCode md := by
  revert md; decide

/-- Settles O5: the code 7 is the decoder's refusal, and every other code names a mode that SETMODE installs. -/
theorem modeOperandNamesAModeOrIsRefused : Obligations.ModeOperandNamesAModeOrIsRefused := by
  intro r c rest hp hop
  have hdecode : decode c.cmd = decodeSetmode (mdField c.cmd) := decode_of_setmode hop
  constructor
  · intro hmd
    have hmd : mdField c.cmd = 7 := hmd
    have hstep : step r.state = .refused (.reservedModeCode c.cmd) := by
      rw [step_of_command hp, issue_of_error (by rw [hdecode, hmd]; exact decodeSetmode_seven)]
      rfl
    obtain ⟨hblock, -, -, hrefusals, -⟩ := advance_of_refused hp hstep
    exact ⟨hstep, hblock, hrefusals⟩
  · intro m hm
    have hm : modeOfCode (mdField c.cmd) = some m := (modes_getElem?_eq_modeOfCode _).symm.trans hm
    have hmd : mdField c.cmd ≠ 7 := fun h7 => by simp [modeOfCode_eq_none.2 h7] at hm
    have hstep : step r.state = execSetmode (mdField c.cmd) ((r.state.withPending rest).withInputs c) :=
      (step_of_command hp).trans (issue_of_ok (hdecode.trans (decodeSetmode_of_ne hmd)) _)
    exact ⟨_, hstep.trans (execSetmode_of_some hm _), rfl⟩

end Sys2Proof.Machine
end

section
/-! PROOFS. The mode and the status word (40_mode_state.md R55 to R64): what the mode queries answer, where PACK puts each
field, and what SETMODE, WRFLAGS and UNPACK leave in the current status. -/

namespace Sys2Proof.Machine

/-! ### PACK: one field of R18 after another -/

theorem flagBits_getLsbD (n z c v : Bool) :
    (flagBits n z c v).getLsbD 3 = n ∧ (flagBits n z c v).getLsbD 2 = z ∧
    (flagBits n z c v).getLsbD 1 = c ∧ (flagBits n z c v).getLsbD 0 = v := by
  revert n z c v
  decide

theorem packStatus_getLsbD_flags (c : Cpsr) (i : Nat) :
    (packStatus c).getLsbD (28 + i) = (flagBits c.N c.Z c.C c.V).getLsbD i := by
  have hword : packStatus c = flagBits c.N c.Z c.C c.V ++ c.ctl ++ modeField c.mode := packStatus_fields c
  rw [hword, BitVec.getLsbD_append, BitVec.getLsbD_append, if_neg (by omega), if_neg (by omega),
    show 28 + i - 5 - 23 = i by omega]

theorem packStatus_ctl (c : Cpsr) : (packStatus c).extractLsb' 5 23 = c.ctl := by
  rw [packStatus_fields, BitVec.extractLsb'_append_eq_of_le (by decide)]
  exact BitVec.extractLsb'_append_eq_right

/-- Settles O21: the word is `packStatus`, whose bits from 28 up are the four flags in the order of `F`. -/
theorem packLaysOutTheStatusWord : Obligations.PackLaysOutTheStatusWord := by
  intro s
  have hbit := packStatus_getLsbD_flags s.CPSR
  obtain ⟨hN, hZ, hC, hV⟩ := flagBits_getLsbD s.CPSR.N s.CPSR.Z s.CPSR.C s.CPSR.V
  exact ⟨packStatus s.CPSR, rfl, (hbit 3).trans hN, (hbit 2).trans hZ, (hbit 1).trans hC, (hbit 0).trans hV,
    packStatus_ctl _, mem_modeFields.2 (packStatus_modeField _)⟩

/-! ### UNPACK: the status word is installed, or there is no mode to install -/

theorem installStatus_of_some {w : Word} {m : Mode} (h : decodeM (w.extractLsb' 0 5) = some m) (s : State) :
    installStatus w s = .next ((s.withCpsr (unpackStatus w m)).withOutputs none none) := by
  simp [installStatus, h, driveNone]

theorem installStatus_of_none_fault {w : Word} {s : State} (h : decodeM (w.extractLsb' 0 5) = none)
    (hp : s.invalidMPolicy = .fault) : installStatus w s = .fault (.invalidModeField s.CMD w) := by
  simp [installStatus, h, hp]

theorem decodeM_eq_none_of_not_valid {w : Word} (h : ¬ ValidModeField w) : decodeM (w.extractLsb' 0 5) = none :=
  Option.eq_none_iff_forall_ne_some.2 fun m hm => h (validModeField_iff.2 ⟨m, hm⟩)

/-- Settles O22: a field of R61's list is one `decodeM` answers with its mode, and any other is INVALID. -/
theorem unpackInstallsTheWordOrFaults : Obligations.UnpackInstallsTheWordOrFaults := by
  intro s
  constructor
  · intro m hm
    have hd : decodeM (s.A.extractLsb' 0 5) = some m := decodeM_eq_some.2 (mem_modeFields.1 hm)
    exact installStatus_of_some hd s
  · intro hinvalid hp
    exact installStatus_of_none_fault (decodeM_eq_none_of_not_valid hinvalid) hp

/-! ### The mode queries: one column of R17 each -/

theorem driveY_of_eq {y y' : Word} (h : y = y') (s : State) : driveY y s = .next { s with F := none, Y := some y' } := by
  rw [h]
  rfl

/-- Settles O19: a query drives its column of R17, which is compared with the stated one mode by mode. -/
theorem modeQueriesAnswerTheModeTable : Obligations.ModeQueriesAnswerTheModeTable := by
  intro s
  refine ⟨driveY_of_eq ?code s, driveY_of_eq ?bank1314 s, driveY_of_eq ?bank812 s, driveY_of_eq ?spsrIndex s⟩
  case bank812 =>
    rw [bank812_eq_ite]
    split <;> rfl
  all_goals cases s.CPSR.mode <;> rfl

/-! ### SETMODE and WRFLAGS: one part of the current status each -/

theorem execSetmode_of_none {md : BitVec 3} (h : modeOfCode md = none) (s : State) :
    execSetmode md s = .refused (.reservedModeCode s.CMD) := by
  simp [execSetmode, h]

/-- Settles O20: 7 is the one code that names no mode, and the mode of any other code is what SETMODE installs. -/
theorem setmodeWritesOnlyTheMode : Obligations.SetmodeWritesOnlyTheMode := by
  intro s md
  constructor
  · intro h7
    exact execSetmode_of_none (modeOfCode_eq_none.2 h7) s
  · intro m hm
    have hm : modeOfCode md = some m := (modes_getElem?_eq_modeOfCode md).symm.trans hm
    exact execSetmode_of_some hm s

/-- Settles O25: WRFLAGS drives no output from `setFlags`, which replaces the four flags of the current status. -/
theorem wrflagsWritesOnlyTheFlags : Obligations.WrflagsWritesOnlyTheFlags := fun s =>
  ⟨(setFlags s.A s).withOutputs none none, rfl, rfl⟩

end Sys2Proof.Machine
end

section
/-! PROOFS. The saved-status multiplexer (41_saved_status.md R70 to R75): what each of its operations does where the
current mode has an SPSR slot and where it has none, and that no other operation reaches an SPSR slot. -/

namespace Sys2Proof.Machine

/-! ### The four operations, by whether the mode has a slot -/

section
variable {s : State}

theorem readSavedStatus_of_none (h : spsrIndex s.CPSR.mode = none) : readSavedStatus s = packStatus s.CPSR := by
  simp [readSavedStatus, h]

theorem readSavedStatus_of_some {k : Fin 5} (h : spsrIndex s.CPSR.mode = some k) :
    readSavedStatus s = s.SPSR[k.val] := by
  simp [readSavedStatus, h]

theorem writeSavedStatus_of_none (h : spsrIndex s.CPSR.mode = none) (w : Word) : writeSavedStatus w s = s := by
  simp [writeSavedStatus, h]

theorem writeSavedStatus_of_some {k : Fin 5} (h : spsrIndex s.CPSR.mode = some k) (w : Word) :
    writeSavedStatus w s = s.withSpsr k w := by
  simp [writeSavedStatus, h]

theorem restoreSavedStatus_of_none (h : spsrIndex s.CPSR.mode = none) :
    restoreSavedStatus s = .next (s.withOutputs none none) := by
  simp [restoreSavedStatus, h, driveNone]

theorem restoreSavedStatus_of_some {k : Fin 5} (h : spsrIndex s.CPSR.mode = some k) :
    restoreSavedStatus s = installStatus s.SPSR[k.val] s := by
  simp [restoreSavedStatus, h]

end

/-! ### MRGSPSRF is a saved-status write of a merged word -/

/-- Bits 31 to 28 of `w` above bits 27 to 0 of `old` (R73). -/
def mergeTopFour (w old : Word) : Word := (w &&& 0xF0000000#32) ||| (old &&& 0x0FFFFFFF#32)

theorem mergeTopFour_top (w old : Word) : (mergeTopFour w old).extractLsb' 28 4 = w.extractLsb' 28 4 := by
  have hw : (0xF0000000#32).extractLsb' 28 4 = BitVec.allOnes 4 := by decide
  have hold : (0x0FFFFFFF#32).extractLsb' 28 4 = 0#4 := by decide
  rw [mergeTopFour, BitVec.extractLsb'_or, BitVec.extractLsb'_and, BitVec.extractLsb'_and, hw, hold,
    BitVec.and_allOnes, BitVec.and_zero, BitVec.or_zero]

theorem mergeTopFour_low (w old : Word) : (mergeTopFour w old).extractLsb' 0 28 = old.extractLsb' 0 28 := by
  have hw : (0xF0000000#32).extractLsb' 0 28 = 0#28 := by decide
  have hold : (0x0FFFFFFF#32).extractLsb' 0 28 = BitVec.allOnes 28 := by decide
  rw [mergeTopFour, BitVec.extractLsb'_or, BitVec.extractLsb'_and, BitVec.extractLsb'_and, hw, hold,
    BitVec.and_allOnes, BitVec.and_zero, BitVec.zero_or]

theorem mergeSavedFlags_eq_writeSavedStatus (w : Word) (s : State) :
    mergeSavedFlags w s = writeSavedStatus (mergeTopFour w (readSavedStatus s)) s := by
  unfold mergeSavedFlags writeSavedStatus readSavedStatus
  cases spsrIndex s.CPSR.mode <;> rfl

/-! ### RDSPSR, WRSPSR, MRGSPSRF and RESTORE -/

/-- Settles O29: where the mode has no slot, the multiplexer reads the word PACK drives. -/
theorem rdspsrReadsTheSlotOrTheStatus : Obligations.RdspsrReadsTheSlotOrTheStatus := by
  intro s
  constructor
  · intro k hk
    exact driveY_of_eq (readSavedStatus_of_some (mem_spsrSlots.1 hk)) s
  · intro hm
    exact ⟨packStatus s.CPSR, driveY_of_eq (readSavedStatus_of_none (spsrIndex_userOrSystem hm)) s, rfl⟩

/-- Settles O30: WRSPSR drives no output from the multiplexer's write of `A`. -/
theorem wrspsrWritesTheSlotOrNothing : Obligations.WrspsrWritesTheSlotOrNothing := by
  intro s
  constructor
  · intro k hk
    exact congrArg driveNone (writeSavedStatus_of_some (mem_spsrSlots.1 hk) s.A)
  · intro hm
    exact congrArg driveNone (writeSavedStatus_of_none (spsrIndex_userOrSystem hm) s.A)

/-- Settles O32: the word written is the slot's own, with `A`'s bits 31 to 28 in place of its own. -/
theorem mrgspsrfReplacesOnlyTheTopFourBits : Obligations.MrgspsrfReplacesOnlyTheTopFourBits := by
  intro s
  have hmerge := mergeSavedFlags_eq_writeSavedStatus s.A s
  constructor
  · intro k hk
    have hk := mem_spsrSlots.1 hk
    rw [readSavedStatus_of_some hk, writeSavedStatus_of_some hk] at hmerge
    exact ⟨mergeTopFour s.A s.SPSR[k.val], congrArg driveNone hmerge, mergeTopFour_top _ _, mergeTopFour_low _ _⟩
  · intro hm
    exact congrArg driveNone (hmerge.trans (writeSavedStatus_of_none (spsrIndex_userOrSystem hm) _))

/-- Settles O31: in a mode with a slot RESTORE is the installation of the slot's word, which UNPACK's rules describe. -/
theorem restoreInstallsTheSavedWordOrNothing : Obligations.RestoreInstallsTheSavedWordOrNothing := by
  intro s
  constructor
  · intro k hk
    have hrestore : exec .restore s = installStatus s.SPSR[k.val] s :=
      restoreSavedStatus_of_some (mem_spsrSlots.1 hk)
    constructor
    · intro m hm
      exact hrestore.trans (installStatus_of_some (decodeM_eq_some.2 (mem_modeFields.1 hm)) s)
    · intro hinvalid hp
      exact hrestore.trans (installStatus_of_none_fault (decodeM_eq_none_of_not_valid hinvalid) hp)
  · intro hm
    exact restoreSavedStatus_of_none (spsrIndex_userOrSystem hm)

/-! ### Who writes an SPSR slot -/

section
variable {s t : State}

theorem driveNone_keeps_SPSR {u : State} (hu : u.SPSR = s.SPSR) (h : driveNone u = .next t) : t.SPSR = s.SPSR := by
  rw [driveNone_next h, State.withOutputs_SPSR, hu]

theorem installStatus_keeps_SPSR {w : Word} (h : installStatus w s = .next t) : t.SPSR = s.SPSR := by
  obtain ⟨m, -, hi⟩ | ⟨-, -, hi⟩ | ⟨-, -, hi⟩ := installStatus_cases w s <;> cases hi.symm.trans h <;> rfl

theorem restoreSavedStatus_keeps_SPSR (h : restoreSavedStatus s = .next t) : t.SPSR = s.SPSR := by
  obtain ⟨-, hr⟩ | ⟨k, -, hr⟩ := restoreSavedStatus_cases s
  · cases hr.symm.trans h
    rfl
  · exact installStatus_keeps_SPSR (hr.symm.trans h)

theorem execSetmode_keeps_SPSR {md : BitVec 3} (h : execSetmode md s = .next t) : t.SPSR = s.SPSR := by
  cases hm : modeOfCode md with
  | none => cases (execSetmode_of_none hm s).symm.trans h
  | some m =>
    cases (execSetmode_of_some hm s).symm.trans h
    rfl

/-- An operation other than WRSPSR and MRGSPSRF leaves every SPSR slot as it stands. -/
theorem exec_keeps_SPSR {i : Instr} (h : exec i s = .next t) (hwr : i ≠ .wrspsr) (hmrg : i ≠ .mrgspsrf) :
    t.SPSR = s.SPSR := by
  cases i
  case wrspsr => exact absurd rfl hwr
  case mrgspsrf => exact absurd rfl hmrg
  case setmode md => exact execSetmode_keeps_SPSR h
  case unpack => exact installStatus_keeps_SPSR h
  case restore => exact restoreSavedStatus_keeps_SPSR h
  case wrflags => exact driveNone_keeps_SPSR (setFlags_SPSR s s.A) h
  case wrlow | wrhigh | wrarch | wrsp | wrlr | wrpc => exact driveNone_keeps_SPSR (writeReg_SPSR s _ s.A) h
  case add | sub | adc | sbc => rw [driveAlu_next h, State.withOutputs_SPSR]
  all_goals rw [driveY_next h, State.withOutputs_SPSR]

end

/-- A saved-status write reaches the current mode's slot alone. -/
theorem writeSavedStatus_SPSR_of_ne {s : State} {k : Fin 5} (h : spsrIndex s.CPSR.mode ≠ some k) (w : Word) :
    (writeSavedStatus w s).SPSR[k.val] = s.SPSR[k.val] := by
  obtain ⟨-, hw⟩ | ⟨j, hj, hw⟩ := writeSavedStatus_SPSR w s
  · rw [hw]
  · have hjk : j.val ≠ k.val := fun hval => h (hj.trans (congrArg some (Fin.ext hval)))
    simp [hw, Vector.getElem_set_ne, hjk]

/-- Settles O33: the two writers are saved-status writes, which reach the current mode's slot alone. -/
theorem savedStatusChangesOnlyByItsWriters : Obligations.SavedStatusChangesOnlyByItsWriters := by
  intro i s t h
  refine ⟨exec_keeps_SPSR h, fun k hk => ?_⟩
  have hslot : spsrIndex s.CPSR.mode ≠ some k := fun hs => hk (mem_spsrSlots.2 hs)
  by_cases hwr : i = .wrspsr
  · subst hwr
    rw [driveNone_next h]
    exact writeSavedStatus_SPSR_of_ne hslot s.A
  by_cases hmrg : i = .mrgspsrf
  · subst hmrg
    rw [driveNone_next h, mergeSavedFlags_eq_writeSavedStatus]
    exact writeSavedStatus_SPSR_of_ne hslot _
  · rw [exec_keeps_SPSR h hwr hmrg]

end Sys2Proof.Machine
end

section
/-! PROOFS. The register-file ports (42_register_file.md R80 to R93): the architectural port reaches the slot R80 gives
its selector modulo 16, and every other port is the architectural port at a register number of its own. -/

namespace Sys2Proof.Machine

/-! ### The slot of a selector of any width, one equation per row of R80 -/

section
variable {r : Nat} (m : Mode)

theorem slotOf_archSel_low {i : Fin 8} (h : r % 16 = i.val) : slotOf m (archSel r) = .low i := by
  rw [archSel_of_mod h (by omega), slotOf_low]

theorem slotOf_archSel_mid {j : Fin 5} (h : r % 16 = 8 + j.val) : slotOf m (archSel r) = .mid (bank812 m) j := by
  rw [archSel_of_mod h (by omega), slotOf_mid]

theorem slotOf_archSel_spLr {k : Fin 2} (h : r % 16 = 13 + k.val) : slotOf m (archSel r) = .spLr (bank1314 m) k := by
  rw [archSel_of_mod h (by omega), slotOf_spLr]

theorem slotOf_archSel_pc (h : r % 16 = 15) : slotOf m (archSel r) = .pc := by
  rw [archSel_of_mod h (by omega)]
  exact slotOf_pc m

end

/-! ### The architectural port -/

/-- RDARCH drives the slot its selector reaches, and WRARCH stores `A` in it. -/
theorem exec_arch_of_slotOf {s : State} {r : Nat} {x : Slot} (h : slotOf s.CPSR.mode (archSel r) = x) :
    exec (.rdarch r) s = .next (s.withOutputs (some (readSlot s x)) none) ∧
    exec (.wrarch r) s = .next ((writeSlot s x s.A).withOutputs none none) := by
  subst h
  exact ⟨rfl, rfl⟩

/-- Settles O36: row by row of R80, the port reads and writes the slot of its selector modulo 16. -/
theorem archPortDispatchesByRegister : Obligations.ArchPortDispatchesByRegister := by
  rintro s r _ _ rfl rfl
  refine ⟨fun i hlow => ?_, fun j hmid => ?_, fun k hspLr => ?_, fun hpc => ?_⟩
  · exact exec_arch_of_slotOf (slotOf_archSel_low _ hlow)
  · exact exec_arch_of_slotOf (slotOf_archSel_mid _ hmid)
  · exact exec_arch_of_slotOf (slotOf_archSel_spLr _ hspLr)
  · exact exec_arch_of_slotOf (slotOf_archSel_pc _ hpc)

/-! ### The low and the high port: the architectural port at `idx` and at `8 + idx` -/

theorem exec_rdlow (n : Nat) : exec (.rdlow n) = exec (.rdarch (lowReg n)) := rfl
theorem exec_wrlow (n : Nat) : exec (.wrlow n) = exec (.wrarch (lowReg n)) := rfl
theorem exec_rdhigh (n : Nat) : exec (.rdhigh n) = exec (.rdarch (highReg n)) := rfl
theorem exec_wrhigh (n : Nat) : exec (.wrhigh n) = exec (.wrarch (highReg n)) := rfl

theorem lowReg_mod_sixteen (n : Nat) : lowReg n % 16 = n % 8 := by
  have hreg : lowReg n = n % 8 := rfl
  omega

theorem highReg_mod_sixteen (n : Nat) : highReg n % 16 = 8 + n % 8 := by
  have hreg : highReg n = 8 + n % 8 := rfl
  omega

/-- Settles O34: the low port is the architectural port at a register below 8, which no mode banks. -/
theorem lowPortIsUnbanked : Obligations.LowPortIsUnbanked := by
  intro s n i hi
  obtain ⟨hlow, -⟩ := archPortDispatchesByRegister s (lowReg n) _ _ rfl rfl
  rw [exec_rdlow, exec_wrlow]
  exact hlow i ((lowReg_mod_sixteen n).trans hi)

/-- Settles O35: the high port is the architectural port at `8 + idx`, so its three ranges are R80's upper rows. -/
theorem highPortUsesTheBankOfTheRegister : Obligations.HighPortUsesTheBankOfTheRegister := by
  intro s n b2 b6 hb2 hb6
  obtain ⟨-, hmid, hspLr, hpc⟩ := archPortDispatchesByRegister s (highReg n) b2 b6 hb2 hb6
  have hreg := highReg_mod_sixteen n
  rw [exec_rdhigh, exec_wrhigh]
  exact ⟨fun j hj => hmid j (by omega), fun k hk => hspLr k (by omega), fun h7 => hpc (by omega)⟩

/-! ### The named ports: the architectural port at 13, 14 and 15 -/

theorem exec_rdsp : exec .rdsp = exec (.rdarch 13) := rfl
theorem exec_wrsp : exec .wrsp = exec (.wrarch 13) := rfl
theorem exec_rdlr : exec .rdlr = exec (.rdarch 14) := rfl
theorem exec_wrlr : exec .wrlr = exec (.wrarch 14) := rfl
theorem exec_rdpc : exec .rdpc = exec (.rdarch 15) := rfl
theorem exec_wrpc : exec .wrpc = exec (.wrarch 15) := rfl

/-- Settles O37: SP and LR are the two registers of R80's third row, and the PC is its last. -/
theorem namedPortsReachSpLrAndPc : Obligations.NamedPortsReachSpLrAndPc := by
  intro s b hb
  have harch := fun r => archPortDispatchesByRegister s r _ b rfl hb
  obtain ⟨-, -, hsp, -⟩ := harch 13
  obtain ⟨-, -, hlr, -⟩ := harch 14
  obtain ⟨-, -, -, hpc⟩ := harch 15
  obtain ⟨hrdsp, hwrsp⟩ := hsp 0 rfl
  obtain ⟨hrdlr, hwrlr⟩ := hlr 1 rfl
  obtain ⟨hrdpc, hwrpc⟩ := hpc rfl
  rw [exec_rdsp, exec_wrsp, exec_rdlr, exec_wrlr, exec_rdpc, exec_wrpc]
  exact ⟨hrdsp, hwrsp, hrdlr, hwrlr, hrdpc, hwrpc⟩

end Sys2Proof.Machine
end

section
/-! PROOFS. The flag ALU (43_flag_alu.md R100 to R105): each operation drives a function of its operands, with N and Z of
the result and with the C and V of its own rule. -/

namespace Sys2Proof.Machine

/-! ### The operations read `A`, `B` and the carry-in alone -/

/-- R100: an ALU operation drives one function of `A` and `B`, the same in every state. -/
theorem exec_alu_eq_driveAlu {i : Instr} (hi : i = .add ∨ i = .sub ∨ (∃ ci, i = .adc ci) ∨ ∃ ci, i = .sbc ci) :
    ∃ alu : Word → Word → AluResult, ∀ s, exec i s = driveAlu (alu s.A s.B) s := by
  obtain rfl | rfl | ⟨ci, rfl⟩ | ⟨ci, rfl⟩ := hi
  · exact ⟨aluAdd, fun _ => rfl⟩
  · exact ⟨aluSub, fun _ => rfl⟩
  · exact ⟨fun a b => aluAdc a b ci, fun _ => rfl⟩
  · exact ⟨fun a b => aluSbc a b ci, fun _ => rfl⟩

/-- Settles O48: equal operands give the ALU's one function equal arguments, and nothing but the outputs is driven. -/
theorem aluIsPure : Obligations.AluIsPure := by
  intro i s s' hi hA hB
  obtain ⟨alu, halu⟩ := exec_alu_eq_driveAlu hi
  have halu' : exec i s' = driveAlu (alu s.A s.B) s' := by rw [halu s', hA, hB]
  exact ⟨_, _, halu s, halu'⟩

/-! ### C and V as the rules state them -/

theorem overflowAdd_iff (a b r : Word) :
    overflowAdd a b r = true ↔ a.getLsbD 31 = b.getLsbD 31 ∧ r.getLsbD 31 ≠ a.getLsbD 31 := by
  simp [overflowAdd]

theorem overflowSub_iff (a b r : Word) :
    overflowSub a b r = true ↔ a.getLsbD 31 ≠ b.getLsbD 31 ∧ r.getLsbD 31 ≠ a.getLsbD 31 := by
  simp [overflowSub]

theorem outsideSigned_iff (x : Int) : outsideSigned x = true ↔ ¬ (-2 ^ 31 ≤ x ∧ x ≤ 2 ^ 31 - 1) := by
  simp [outsideSigned, imp_iff_not_or]

/-- The word of an exact integer is that integer modulo 2^32 (R103, R105). -/
theorem cast_toNat_ofInt (d : Int) : ((BitVec.ofInt 32 d).toNat : Int) = d % 2 ^ 32 := by
  rw [BitVec.toNat_ofInt]
  exact Int.toNat_of_nonneg (Int.emod_nonneg d (by decide))

/-! ### The outputs of an ALU operation -/

/-- R101: an operation with result `r` drives N and Z of `r` beside its own C and V, and changes nothing else. `P` is
what the operation's rule says of `r`, and `C` and `V` are what it says of the two flags. -/
theorem driveAlu_aluResult {r : Word} {c v : Bool} {P C V : Prop} (hr : P) (hC : c = true ↔ C) (hV : v = true ↔ V)
    (s : State) : ∃ f : BitVec 4, driveAlu (aluResult r c v) s = .next { s with Y := some r, F := some f } ∧ P ∧
      f.getLsbD 3 = r.getLsbD 31 ∧ (f.getLsbD 2 = true ↔ r = 0) ∧
      (f.getLsbD 1 = true ↔ C) ∧ (f.getLsbD 0 = true ↔ V) := by
  obtain ⟨hn, hz, hc, hv⟩ := flagBits_getLsbD (r.getLsbD 31) (r == 0) c v
  exact ⟨flagBits (r.getLsbD 31) (r == 0) c v, rfl, hr, hn, by rw [hz, beq_iff_eq], by rw [hc, hC], by rw [hv, hV]⟩

/-- Settles O43: the result is the word of the exact sum, and V the sign form of R102. -/
theorem addGivesSumAndFlags : Obligations.AddGivesSumAndFlags := fun s =>
  ⟨_, driveAlu_aluResult (BitVec.toNat_ofNat (s.A.toNat + s.B.toNat) 32)
    decide_eq_true_iff (overflowAdd_iff _ _ _) s⟩

/-- Settles O44: the result is the word of the exact difference, and V the sign form of R103. -/
theorem subGivesDifferenceAndFlags : Obligations.SubGivesDifferenceAndFlags := fun s =>
  ⟨_, driveAlu_aluResult (cast_toNat_ofInt (s.A.toNat - s.B.toNat))
    decide_eq_true_iff (overflowSub_iff _ _ _) s⟩

/-- Settles O45: the result is the word of the exact three-term sum, and V the signed-range form of R104. -/
theorem adcGivesSumAndFlags : Obligations.AdcGivesSumAndFlags := fun s ci =>
  ⟨_, driveAlu_aluResult (BitVec.toNat_ofNat (s.A.toNat + s.B.toNat + ci.toNat) 32)
    decide_eq_true_iff (outsideSigned_iff _) s⟩

/-- Settles O46: the result is the word of the exact difference less NOT borrow-in, and V the sign form of R105. -/
theorem sbcGivesDifferenceAndFlags : Obligations.SbcGivesDifferenceAndFlags := fun s ci =>
  ⟨_, driveAlu_aluResult (cast_toNat_ofInt (s.A.toNat - s.B.toNat - (1 - ci.toNat)))
    decide_eq_true_iff (overflowSub_iff _ _ _) s⟩

end Sys2Proof.Machine
end

section
/-! PROOFS. Where one presented command stops (60_exceptions.md R116): the operations and words that fault under the
policy Fault, the command words that are refused, and what a run keeps of either stop. -/

namespace Sys2Proof

/-! ### The command words of UNPACK and RESTORE -/

theorem decode_of_unpack {w : CmdWord} (hop : opField w = 0x06) : decode w = .ok .unpack := by
  simp [decode, hop]

theorem decode_of_restore {w : CmdWord} (hop : opField w = 0x0A) : decode w = .ok .restore := by
  simp [decode, hop]

theorem opcode_of_decodeSetmode {md : BitVec 3} {i : Instr} (h : decodeSetmode md = .ok i) : i.opcode = 0x01 := by
  by_cases hmd : md = 7
  · rw [hmd, decodeSetmode_seven] at h
    cases h
  · rw [decodeSetmode_of_ne hmd] at h
    cases h
    rfl

/-- The operation a word decodes to is the one R47 lists under the word's `OP`. -/
theorem opcode_of_decode {w : CmdWord} {i : Instr} (h : decode w = .ok i) : i.opcode = opField w := by
  unfold decode at h
  split at h
  case h_2 hop => exact (opcode_of_decodeSetmode h).trans (BitVec.eq_of_toNat_eq hop.symm)
  case h_29 => cases h
  all_goals
    next hop =>
      cases h
      exact BitVec.eq_of_toNat_eq hop.symm

end Sys2Proof

namespace Sys2Proof.Machine

/-! ### The operations that fault under the policy Fault -/

section
variable {s : State} {f : Fault} (hp : s.invalidMPolicy = .fault)
include hp

theorem installStatus_eq_fault_iff (w : Word) :
    installStatus w s = .fault f ↔ ¬ ValidModeField w ∧ f = .invalidModeField s.CMD w := by
  by_cases hvalid : ValidModeField w
  · obtain ⟨m, hm⟩ := validModeField_iff.1 hvalid
    simp [installStatus_of_some hm, hvalid]
  · simp [installStatus_of_none_fault (decodeM_eq_none_of_not_valid hvalid) hp, hvalid, eq_comm]

theorem restoreSavedStatus_eq_fault_iff :
    restoreSavedStatus s = .fault f ↔ ∃ k, spsrIndex s.CPSR.mode = some k ∧
      ¬ ValidModeField s.SPSR[k.val] ∧ f = .invalidModeField s.CMD s.SPSR[k.val] := by
  cases hk : spsrIndex s.CPSR.mode with
  | none => simp [restoreSavedStatus_of_none hk]
  | some k => simp [restoreSavedStatus_of_some hk, installStatus_eq_fault_iff hp]

end

/-- UNPACK and RESTORE are the only operations that fault. -/
theorem unpack_or_restore_of_exec_fault {i : Instr} {s : State} {f : Fault} (h : exec i s = .fault f) :
    i = .unpack ∨ i = .restore := by
  cases i
  case unpack => exact .inl rfl
  case restore => exact .inr rfl
  case setmode md =>
    cases hm : modeOfCode md with
    | none => cases (execSetmode_of_none hm s).symm.trans h
    | some m => cases (execSetmode_of_some hm s).symm.trans h
  all_goals cases h

/-! ### The stops of one presented command -/

section
variable {c : Command} {s : State}

theorem issue_of_unpack (hop : opField c.cmd = 0x06) : issue c s = installStatus c.a (s.withInputs c) :=
  issue_of_ok (decode_of_unpack hop) s

theorem issue_of_restore (hop : opField c.cmd = 0x0A) : issue c s = restoreSavedStatus (s.withInputs c) :=
  issue_of_ok (decode_of_restore hop) s

theorem issue_of_reserved (hlo : 0x0C ≤ (opField c.cmd).toNat) (hhi : (opField c.cmd).toNat ≤ 0x0F) :
    issue c s = .refused (.reservedOpcode c.cmd) :=
  issue_of_error (decode_of_reserved hlo hhi) s

theorem issue_of_setmode_seven (hop : opField c.cmd = 0x01) (hmd : mdField c.cmd = 7) :
    issue c s = .refused (.reservedModeCode c.cmd) :=
  issue_of_error (by rw [decode_of_setmode hop, hmd, decodeSetmode_seven]) s

/-- Only a word with UNPACK's or RESTORE's `OP` faults. -/
theorem opField_of_issue_fault {f : Fault} (h : issue c s = .fault f) :
    opField c.cmd = 0x06 ∨ opField c.cmd = 0x0A := by
  cases hd : decode c.cmd with
  | error e => cases (issue_of_error hd s).symm.trans h
  | ok i =>
    rw [issue_of_ok hd] at h
    rw [← opcode_of_decode hd]
    obtain rfl | rfl := unpack_or_restore_of_exec_fault h
    · exact .inl rfl
    · exact .inr rfl

/-- R116's two rows of Fault. -/
theorem issue_eq_fault_iff {f : Fault} (hp : s.invalidMPolicy = .fault) :
    issue c s = .fault f ↔
      (opField c.cmd = 0x06 ∧ ¬ ValidModeField c.a ∧ f = .invalidModeField c.cmd c.a) ∨
      (opField c.cmd = 0x0A ∧ ∃ k, (s.CPSR.mode, k) ∈ spsrSlots ∧
        ¬ ValidModeField s.SPSR[k.val] ∧ f = .invalidModeField c.cmd s.SPSR[k.val]) := by
  have hp : (s.withInputs c).invalidMPolicy = .fault := hp
  simp only [mem_spsrSlots]
  constructor
  · intro h
    obtain hop | hop := opField_of_issue_fault h
    · rw [issue_of_unpack hop] at h
      exact .inl ⟨hop, (installStatus_eq_fault_iff hp c.a).1 h⟩
    · rw [issue_of_restore hop] at h
      exact .inr ⟨hop, (restoreSavedStatus_eq_fault_iff hp).1 h⟩
  · rintro (⟨hop, hstop⟩ | ⟨hop, hstop⟩)
    · rw [issue_of_unpack hop]
      exact (installStatus_eq_fault_iff hp c.a).2 hstop
    · rw [issue_of_restore hop]
      exact (restoreSavedStatus_eq_fault_iff hp).2 hstop

/-- R116's two rows of Refused. -/
theorem issue_eq_refused_iff {q : Refusal} :
    issue c s = .refused q ↔
      (0x0C ≤ (opField c.cmd).toNat ∧ (opField c.cmd).toNat ≤ 0x0F ∧ q = .reservedOpcode c.cmd) ∨
      (opField c.cmd = 0x01 ∧ mdField c.cmd = 7 ∧ q = .reservedModeCode c.cmd) := by
  constructor
  · intro h
    obtain ⟨hlo, hhi⟩ | ⟨hop, hmd⟩ := reserved_of_issue_refused h
    · cases (issue_of_reserved hlo hhi).symm.trans h
      exact .inl ⟨hlo, hhi, rfl⟩
    · cases (issue_of_setmode_seven hop hmd).symm.trans h
      exact .inr ⟨hop, hmd, rfl⟩
  · rintro (⟨hlo, hhi, rfl⟩ | ⟨hop, hmd, rfl⟩)
    · exact issue_of_reserved hlo hhi
    · exact issue_of_setmode_seven hop hmd

end

/-! ### A fault in a run -/

/-- What a run keeps of a request that faulted: the mark, and every element of the block (R8, R116). -/
theorem advance_of_fault {r : Run} {q : Request} {rest : List Request} {f : Fault}
    (hp : r.state.pending = q :: rest) (h : step r.state = .fault f) :
    SameBlock r.state (advance r).state ∧ (advance r).faults = r.faults ++ [f] := by
  obtain ⟨hblock, -⟩ := afterStop_effect r.state q rest hp
  have hadvance : advance r = { r with state := afterStop r.state, faults := r.faults ++ [f] } := by
    simp only [advance, h]
  rw [hadvance]
  exact ⟨hblock, rfl⟩

/-- Settles O10: the step issues the command, whose stops are R116's rows, and a stop drops the request alone. -/
theorem commandsStopExactlyWhereStated : Obligations.CommandsStopExactlyWhereStated := by
  intro r c rest hpending hpolicy
  have hstep : step r.state = issue c (r.state.withPending rest) := step_of_command hpending
  refine ⟨fun f => ?_, fun q => ?_, fun f => advance_of_fault hpending, fun q h => ?_⟩
  · rw [hstep]
    exact issue_eq_fault_iff (s := r.state.withPending rest) hpolicy
  · rw [hstep]
    exact issue_eq_refused_iff
  · obtain ⟨hblock, -, -, hrefusals, -⟩ := advance_of_refused hpending h
    exact ⟨hblock, hrefusals⟩

end Sys2Proof.Machine
end

section
/-! PROOFS. Exception entry and return (60_exceptions.md R118, R119): what the driver's sequences do to the block,
command by command, each by the rule of its own operation. -/

namespace Sys2Proof.Machine

/-! ### A run of assembled commands, from its first one -/

section
variable {s t : State} {i : Instr} {a b : Word} {rest : List Request}

theorem step_of_asm (hp : s.pending = asm i a b :: rest) (hd : decode (encode i) = .ok i) :
    step s = exec i ((s.withPending rest).withInputs ⟨encode i, a, b⟩) :=
  (step_of_command hp).trans (issue_of_ok (c := ⟨encode i, a, b⟩) hd _)

/-- A run goes on from where its first command, run on its operands, arrives. -/
theorem run_asm_of_next {k : Nat} (hp : s.pending = asm i a b :: rest) (hd : decode (encode i) = .ok i)
    (h : exec i ((s.withPending rest).withInputs ⟨encode i, a, b⟩) = .next t) :
    Host.Core.run core (k + 1) s = Host.Core.run core k t :=
  run_succ_of_next ((step_of_asm hp hd).trans h)

/-- A run ends in the fault of its first command. -/
theorem run_asm_of_fault {k : Nat} {f : Fault} (hp : s.pending = asm i a b :: rest) (hd : decode (encode i) = .ok i)
    (h : exec i ((s.withPending rest).withInputs ⟨encode i, a, b⟩) = .fault f) :
    Host.Core.run core (k + 1) s = .fault f := by
  have hstep : core.step s = .fault f := (step_of_asm hp hd).trans h
  simp only [Host.Core.run, hstep]

end

/-! ### The commands of the sequences, with the block apart from the interface -/

/-- The state with the command of `i` on the inputs, `y` and no flags on the outputs, and `rest` still to come: the block
of `s` between two commands of a sequence. -/
def State.withInterface (i : Instr) (a b : Word) (y : Option Word) (rest : List Request) (s : State) : State :=
  ((s.withPending rest).withInputs ⟨encode i, a, b⟩).withOutputs y none

theorem writeSavedStatus_withInterface (s : State) (i : Instr) (a b : Word) (y : Option Word) (rest : List Request)
    (w : Word) : writeSavedStatus w (s.withInterface i a b y rest) = (writeSavedStatus w s).withInterface i a b y rest := by
  have hmode : (s.withInterface i a b y rest).CPSR = s.CPSR := rfl
  unfold writeSavedStatus
  rw [hmode]
  cases spsrIndex s.CPSR.mode <;> rfl

/-- A sequence goes on from where its next command arrives, which the interface of the command before does not change. -/
theorem run_withInterface_of_next {s t : State} {i j : Instr} {a b a' b' : Word} {y : Option Word} {rest : List Request}
    {k : Nat} (hd : decode (encode i) = .ok i) (h : exec i (s.withInterface i a b y rest) = .next t) :
    Host.Core.run core (k + 1) (s.withInterface j a' b' y (asm i a b :: rest)) = Host.Core.run core k t :=
  run_asm_of_next rfl hd h

theorem decode_encode_setmode_code (m : Mode) : decode (encode (.setmode (code m))) = .ok (.setmode (code m)) := by
  cases m <;> rfl

section
variable (s : State) (v b : Word) (y : Option Word) (rest : List Request)

theorem exec_setmode_code_withInterface (m : Mode) :
    exec (.setmode (code m)) (s.withInterface (.setmode (code m)) v b y rest) =
      .next ((setMode m s).withInterface (.setmode (code m)) v b none rest) :=
  execSetmode_of_some (modeOfCode_code m) _

theorem exec_wrspsr_withInterface :
    exec .wrspsr (s.withInterface .wrspsr v b y rest) =
      .next ((writeSavedStatus v s).withInterface .wrspsr v b none rest) :=
  (congrArg driveNone (writeSavedStatus_withInterface s .wrspsr v b y rest v)).trans rfl

theorem exec_wrlr_withInterface :
    exec .wrlr (s.withInterface .wrlr v b y rest) = .next ((writeReg 14 v s).withInterface .wrlr v b none rest) := rfl

theorem exec_wrpc_withInterface :
    exec .wrpc (s.withInterface .wrpc v b y rest) = .next ((writeReg 15 v s).withInterface .wrpc v b none rest) := rfl

end

/-! ### Exception entry -/

/-- R118's five steps on the block, which are `enterException`. -/
theorem run_enterRequests (s : State) (target : Mode) (ret vec : Word) (rest : List Request) :
    Host.Core.run core 5 { s with pending := enterRequests target (packStatus s.CPSR) ret vec ++ rest } =
      .next ((enterException target ret vec s).withInterface .wrpc vec 0 none rest) :=
  calc Host.Core.run core 5 { s with pending := enterRequests target (packStatus s.CPSR) ret vec ++ rest }
    _ = Host.Core.run core 4 (s.withInterface .pack 0 0 (some (packStatus s.CPSR))
          (asm (.setmode (code target)) 0 0 :: asm .wrspsr (packStatus s.CPSR) 0 :: asm .wrlr ret 0 ::
            asm .wrpc vec 0 :: rest)) := run_asm_of_next rfl rfl rfl
    _ = Host.Core.run core 3 _ :=
      run_withInterface_of_next (decode_encode_setmode_code target) (exec_setmode_code_withInterface s _ _ _ _ target)
    _ = Host.Core.run core 2 _ := run_withInterface_of_next rfl (exec_wrspsr_withInterface (setMode target s) _ _ _ _)
    _ = Host.Core.run core 1 _ := run_withInterface_of_next rfl (exec_wrlr_withInterface _ _ _ _ _)
    _ = Host.Core.run core 0 _ := run_withInterface_of_next rfl (exec_wrpc_withInterface _ _ _ _ _)

theorem enterException_of_some {target : Mode} {k : Fin 5} (h : spsrIndex target = some k) (ret vec : Word) (s : State) :
    enterException target ret vec s =
      writeReg 15 vec (writeReg 14 ret ((setMode target s).withSpsr k (packStatus s.CPSR))) := by
  rw [enterException, writeSavedStatus_of_some (s := setMode target s) h]

theorem enterException_of_none {target : Mode} (h : spsrIndex target = none) (ret vec : Word) (s : State) :
    enterException target ret vec s = writeReg 15 vec (writeReg 14 ret (setMode target s)) := by
  rw [enterException, writeSavedStatus_of_none (s := setMode target s) h]

/-- Settles O52: the word saved is the one PACK drives before entry, and User and System mode have no slot to save it. -/
theorem exceptionEntrySavesAndVectors : Obligations.ExceptionEntrySavesAndVectors := by
  intro s target ret vec rest
  refine ⟨packStatus s.CPSR, rfl, ?_⟩
  rintro _ rfl
  have hrun := run_enterRequests s target ret vec rest
  constructor
  · intro k hk
    rw [enterException_of_some (mem_spsrSlots.1 hk)] at hrun
    exact hrun
  · intro hm
    rw [enterException_of_none (spsrIndex_userOrSystem hm)] at hrun
    exact hrun

/-! ### Exception return -/

section
variable (s : State) (l adj : Word) (rest : List Request)

/-- The state in which the RESTORE of an exception return runs: RDLR is done, and WRPC is still to come. -/
def atRestore : State :=
  s.withInterface .restore 0 0 (some (readReg s 14)) (asm .wrpc (l - adj) 0 :: rest)

/-- The first command of a return, RDLR, changes no element of the block. -/
theorem run_leaveRequests_succ (k : Nat) :
    Host.Core.run core (k + 1) { s with pending := leaveRequests l adj ++ rest } =
      Host.Core.run core k (s.withInterface .rdlr 0 0 (some (readReg s 14))
        (asm .restore 0 0 :: asm .wrpc (l - adj) 0 :: rest)) :=
  run_asm_of_next rfl rfl rfl

/-- A return whose RESTORE leaves the status `c` completes with that status, and with `l - adj` in the PC. -/
theorem run_leaveRequests_of_next {c : Cpsr}
    (h : exec .restore (atRestore s l adj rest) = .next { atRestore s l adj rest with CPSR := c, Y := none, F := none }) :
    Host.Core.run core 3 { s with pending := leaveRequests l adj ++ rest } =
      .next ((writeReg 15 (l - adj) (s.withCpsr c)).withInterface .wrpc (l - adj) 0 none rest) :=
  calc Host.Core.run core 3 { s with pending := leaveRequests l adj ++ rest }
    _ = Host.Core.run core 2 _ := run_leaveRequests_succ s l adj rest 2
    _ = Host.Core.run core 1 ((s.withCpsr c).withInterface .restore 0 0 none (asm .wrpc (l - adj) 0 :: rest)) :=
      run_withInterface_of_next rfl h
    _ = Host.Core.run core 0 _ := run_withInterface_of_next rfl (exec_wrpc_withInterface _ _ _ _ _)

/-- A return whose RESTORE faults ends in that fault. -/
theorem run_leaveRequests_of_fault {f : Fault} (h : exec .restore (atRestore s l adj rest) = .fault f) :
    Host.Core.run core 3 { s with pending := leaveRequests l adj ++ rest } = .fault f :=
  (run_leaveRequests_succ s l adj rest 2).trans (run_asm_of_fault rfl rfl h)

end

/-- Settles O53: R72's three cases of the RESTORE in the middle decide what the sequence leaves. -/
theorem exceptionReturnRestoresAndResumes : Obligations.ExceptionReturnRestoresAndResumes := by
  intro s adj rest
  refine ⟨readReg s 14, rfl, ?_⟩
  obtain ⟨hslot, hnone⟩ := restoreInstallsTheSavedWordOrNothing (atRestore s (readReg s 14) adj rest)
  constructor
  · intro k hk
    obtain ⟨hvalid, hinvalid⟩ := hslot k hk
    constructor
    · intro m hm
      exact run_leaveRequests_of_next s _ adj rest (hvalid m hm)
    · intro hfield hpolicy
      exact run_leaveRequests_of_fault s _ adj rest (hinvalid hfield hpolicy)
  · intro hm
    exact run_leaveRequests_of_next s _ adj rest (hnone hm)

end Sys2Proof.Machine
end

section
/-! PROOFS. Reset (70_reset_and_hazards.md R130): what a block holds when it is made, and what the RESET input leaves of the
block, the outputs and a run's marks. -/

namespace Sys2Proof.Machine

/-! ### The reset values are the block's alone -/

/-- R130's list, element by element. -/
theorem holdsResetValues_resetWith (m : Mode) (p : InvalidMPolicy) : HoldsResetValues m (State.resetWith m p) := by
  have hlow : ∀ i : Fin 8, (State.resetWith m p).R0_7[i.val] = 0 := fun i => Vector.getElem_replicate i.isLt
  have hmid : ∀ (b : Fin 2) (j : Fin 5), (State.resetWith m p).R8_12[b.val][j.val] = 0 := by
    simp [State.resetWith]
  have hspLr : ∀ (b : Fin 6) (k : Fin 2), (State.resetWith m p).R13_14[b.val][k.val] = 0 := by
    simp [State.resetWith]
  have hspsr : ∀ k : Fin 5, (State.resetWith m p).SPSR[k.val] = 0 := fun k => Vector.getElem_replicate k.isLt
  exact ⟨hlow, hmid, hspLr, rfl, hspsr, rfl, rfl, rfl, rfl, rfl, rfl⟩

/-- The inputs, the outputs, the pending requests and the parameters are no elements of R10. -/
theorem HoldsResetValues.of_sameBlock {m : Mode} {s t : State} (h : HoldsResetValues m s) (hst : SameBlock s t) :
    HoldsResetValues m t := by
  obtain ⟨⟨hlow, hmid, hspLr, hpc⟩, hcpsr, hspsr⟩ := hst
  unfold HoldsResetValues
  rw [hlow, hmid, hspLr, hpc, hcpsr, hspsr]
  exact h

/-! ### The RESET input -/

/-- The state the RESET input leaves: a fresh block between the inputs and the driver's requests of `s`. -/
def afterReset (s : State) : State :=
  { State.resetWith s.resetMode s.invalidMPolicy with CMD := s.CMD, A := s.A, B := s.B, pending := s.pending }

theorem resetInput_eq_next (s : State) : resetInput s = .next (afterReset s) := rfl

theorem sameBlock_afterReset (s : State) : SameBlock (State.resetWith s.resetMode s.invalidMPolicy) (afterReset s) :=
  ⟨⟨rfl, rfl, rfl, rfl⟩, rfl, rfl⟩

theorem holdsResetValues_afterReset (s : State) : HoldsResetValues s.resetMode (afterReset s) :=
  (holdsResetValues_resetWith s.resetMode s.invalidMPolicy).of_sameBlock (sameBlock_afterReset s)

theorem step_of_reset {s : State} {rest : List Request} (h : s.pending = .reset :: rest) :
    step s = .next (afterReset (s.withPending rest)) := by
  simp only [step, h, serve, resetInput_eq_next]

/-- A run goes on past a completed request with its marks as they were (R8). -/
theorem advance_of_next {r : Run} {t : State} (h : step r.state = .next t) : advance r = { r with state := t } := by
  simp only [advance, h]

/-- Settles O11: RESET is served by a fresh block of the same parameters, and completes, so that no mark changes. -/
theorem resetMakesAFreshInstance : Obligations.ResetMakesAFreshInstance := by
  refine ⟨holdsResetValues_resetWith, fun r rest hp => ?_⟩
  have hstep : step r.state = .next (afterReset (r.state.withPending rest)) := step_of_reset hp
  refine ⟨_, hstep, holdsResetValues_afterReset (r.state.withPending rest), rfl, rfl, ?_⟩
  rw [advance_of_next hstep]
  exact ⟨rfl, rfl⟩

end Sys2Proof.Machine
end

section
/-! PROOFS. The encoder against the decoder (30_encoding.md R41, R47, R52, R53): the canonical word of a well-formed
operation decodes to it, and the canonical word of what a word decodes to is the word with its unused bits 0. -/

namespace Sys2Proof

open Sys2Proof.Machine (usedBits)

/-! ### Decoding a canonical word -/

/-- The decoder reads `OP` first, and then the one field R41 gives the operation. -/
theorem decode_encode {i : Instr} (h : i.WellFormed) : decode (encode i) = .ok i := by
  cases i
  case setmode md =>
    have hmd : md ≠ 7 := bne_iff_ne.1 h
    simp [encode, decode, decodeSetmode_of_ne hmd]
  case rdlow idx | wrlow idx | rdhigh idx | wrhigh idx =>
    have hidx : idx < 8 := of_decide_eq_true h
    simp [encode, decode, hidx]
  case rdarch reg | wrarch reg =>
    have hreg : reg < 16 := of_decide_eq_true h
    simp [encode, decode, Nat.mod_eq_of_lt hreg]
  case adc ci | sbc ci => simp [encode, decode]
  all_goals rfl

/-- Settles O1: operation by operation, the field that carries the operand is read back as it was put in. -/
theorem decodeOfEncodeGivesTheOperation : Obligations.DecodeOfEncodeGivesTheOperation := fun _ => decode_encode

/-! ### Encoding what was decoded -/

/-- A word without its unused bits is assembled from its masked fields. -/
theorem and_usedBits_eq_commandWord {w : CmdWord} {op : BitVec 5} {sel : BitVec 4} {md : BitVec 3} {ci : Bool}
    (hop : op = opField w) (hsel : selField (usedBits op) = sel) (hmd : mdField (usedBits op) = md)
    (hci : ciField (usedBits op) = ci) :
    w &&& usedBits (opField w) = commandWord op (selField w &&& sel) (mdField w &&& md) (ciField w && ci) := by
  have hunused : (usedBits op).extractLsb' 0 3 = 0#3 := by clear * -; revert op; decide
  have hlow : (w &&& usedBits op).extractLsb' 0 3 = 0#3 := by
    rw [BitVec.extractLsb'_and, hunused, BitVec.and_zero]
  rw [← hsel, ← hmd, ← hci, ← selField_and, ← mdField_and, ← ciField_and, ← hop]
  nth_rw 2 [hop]
  rw [← opField_and_usedBits w op]
  exact (eq_fields _).trans (congrArg (_ ++ ·) hlow)

/-- The index a word carries, as the selector of its canonical word (R44). -/
theorem ofNat_idxField (w : CmdWord) : BitVec.ofNat 4 ((idxField w).toNat % 8) = selField w &&& 7#4 := by
  have h7 : (7#4).toNat = 2 ^ 3 - 1 := rfl
  apply BitVec.eq_of_toNat_eq
  rw [BitVec.toNat_and, h7, Nat.and_two_pow_sub_one_eq_mod]
  simp only [idxField, selField, BitVec.extractLsb'_toNat, BitVec.toNat_ofNat]
  omega

/-- The register number a word carries, as the selector of its canonical word (R43). -/
theorem ofNat_selField (w : CmdWord) : BitVec.ofNat 4 ((selField w).toNat % 16) = selField w &&& 15#4 := by
  rw [Nat.mod_eq_of_lt (selField w).isLt, BitVec.ofNat_toNat, BitVec.setWidth_eq]
  exact BitVec.and_allOnes.symm

/-- SETMODE's decoding answers its own mode code, and only one that names a mode (R45). -/
theorem eq_setmode_of_decodeSetmode {md : BitVec 3} {i : Instr} (h : decodeSetmode md = .ok i) :
    i = .setmode md ∧ i.WellFormed := by
  by_cases hmd : md = 7
  · rw [hmd, decodeSetmode_seven] at h
    cases h
  · rw [decodeSetmode_of_ne hmd] at h
    cases h
    exact ⟨rfl, bne_iff_ne.2 hmd⟩

/-- Every operation the decoder gives is well formed: the fields are as wide as the operands may be. -/
theorem wellFormed_of_decode {w : CmdWord} {i : Instr} (h : decode w = .ok i) : i.WellFormed := by
  unfold decode at h
  split at h
  case h_2 => exact (eq_setmode_of_decodeSetmode h).2
  case h_13 | h_14 | h_15 | h_16 =>
    cases h
    exact decide_eq_true (idxField w).isLt
  case h_17 | h_18 =>
    cases h
    exact decide_eq_true (selField w).isLt
  case h_29 => cases h
  all_goals
    cases h
    rfl

/-- The canonical word has `OP` and the operation's own field from the word it was decoded from, and 0 elsewhere. -/
theorem encode_of_decode {w : CmdWord} {i : Instr} (h : decode w = .ok i) : encode i = w &&& usedBits (opField w) := by
  have hop := opcode_of_decode h
  unfold decode at h
  split at h
  case h_2 =>
    obtain ⟨rfl, -⟩ := eq_setmode_of_decodeSetmode h
    rw [Instr.opcode] at hop
    rw [and_usedBits_eq_commandWord (sel := 0) (md := BitVec.allOnes 3) (ci := false) hop rfl rfl rfl,
      BitVec.and_allOnes]
    simp [encode]
  case h_13 | h_14 | h_15 | h_16 =>
    cases h
    rw [Instr.opcode] at hop
    rw [and_usedBits_eq_commandWord (sel := 7#4) (md := 0) (ci := false) hop rfl rfl rfl, ← ofNat_idxField]
    simp [encode]
  case h_17 | h_18 =>
    cases h
    rw [Instr.opcode] at hop
    rw [and_usedBits_eq_commandWord (sel := 15#4) (md := 0) (ci := false) hop rfl rfl rfl, ← ofNat_selField]
    simp [encode]
  case h_27 | h_28 =>
    cases h
    rw [Instr.opcode] at hop
    rw [and_usedBits_eq_commandWord (sel := 0) (md := 0) (ci := true) hop rfl rfl rfl]
    simp [encode]
  case h_29 => cases h
  all_goals
    cases h
    rw [Instr.opcode] at hop
    rw [and_usedBits_eq_commandWord (sel := 0) (md := 0) (ci := false) hop rfl rfl rfl]
    simp [encode, Instr.opcode]

/-- Settles O2: the operation's opcode is the word's `OP`, and its canonical word has the field the decoder read. -/
theorem encodeOfDecodeClearsOnlyUnusedBits : Obligations.EncodeOfDecodeClearsOnlyUnusedBits := fun _ _ h =>
  ⟨wellFormed_of_decode h, opcode_of_decode h, encode_of_decode h⟩

/-- Settles O6: the decoder evaluated on the five words. -/
theorem sampleWordsDecode : Obligations.SampleWordsDecode := by
  unfold Obligations.SampleWordsDecode
  decide

end Sys2Proof
end

section
/-! PROOFS. What an operation can do (30_encoding.md R50; 10_state.md R20): it drives outputs, and at most it replaces
the current status, writes one register, or writes the current mode's saved status. -/

namespace Sys2Proof.Machine

/-- The changes an operation can make: every operation that gives a next state makes one of these (R20, R50). -/
inductive Effect (i : Instr) (s : State) : State → Prop
  /-- it answers on `Y` -/
  | answer (y : Word) (hreg : writtenReg i = none) : Effect i s (s.withOutputs (some y) none)
  /-- an ALU operation, which alone reads `B`, answers a result with its N and Z, and the C and V of its own rule -/
  | alu (r : Word) (c v : Bool) (hreg : writtenReg i = none) (hi : readsB i = true) :
      Effect i s (s.withOutputs (some r) (some (flagBits (r.getLsbD 31) (r == 0) c v)))
  /-- it replaces the current status, the parts that R20 lists for it alone -/
  | status (c : Cpsr) (hreg : writtenReg i = none)
      (hmode : c.mode = s.CPSR.mode ∨ (∃ md, i = .setmode md) ∨ i = .unpack ∨ i = .restore)
      (hctl : c.ctl = s.CPSR.ctl ∨ i = .unpack ∨ i = .restore)
      (hflags : (c.N = s.CPSR.N ∧ c.Z = s.CPSR.Z ∧ c.C = s.CPSR.C ∧ c.V = s.CPSR.V) ∨
        i = .wrflags ∨ i = .unpack ∨ i = .restore) :
      Effect i s ((s.withCpsr c).withOutputs none none)
  /-- it stores `A` in the register R20 lists for it -/
  | register (r : Nat) (hreg : writtenReg i = some r) : Effect i s ((writeReg r s.A s).withOutputs none none)
  /-- it writes the current mode's saved status, MRGSPSRF the top four bits alone -/
  | saved (w : Word) (hreg : writtenReg i = none) (hi : i = .wrspsr ∨ i = .mrgspsrf)
      (hlow : i = .mrgspsrf → w.extractLsb' 0 28 = (readSavedStatus s).extractLsb' 0 28) :
      Effect i s ((writeSavedStatus w s).withOutputs none none)

section
variable {i : Instr} {s t : State}

theorem effect_of_driveY {y : Word} (h : driveY y s = .next t) (hreg : writtenReg i = none) : Effect i s t :=
  driveY_next h ▸ .answer y hreg

theorem effect_of_driveAlu {r : Word} {c v : Bool} (h : driveAlu (aluResult r c v) s = .next t)
    (hreg : writtenReg i = none) (hi : readsB i = true) : Effect i s t :=
  driveAlu_next h ▸ .alu r c v hreg hi

theorem effect_of_writeReg {r : Nat} (h : driveNone (writeReg r s.A s) = .next t) (hreg : writtenReg i = some r) :
    Effect i s t :=
  driveNone_next h ▸ .register r hreg

/-- UNPACK and RESTORE may write every part of the current status. -/
theorem effect_of_installStatus {w : Word} (h : installStatus w s = .next t) (hi : i = .unpack ∨ i = .restore) :
    Effect i s t := by
  have hreg : writtenReg i = none := by obtain rfl | rfl := hi <;> rfl
  have heffect (c : Cpsr) : Effect i s ((s.withCpsr c).withOutputs none none) :=
    .status c hreg (.inr (.inr hi)) (.inr hi) (.inr (.inr hi))
  obtain ⟨m, -, hn⟩ | ⟨-, -, hf⟩ | ⟨-, -, hn⟩ := installStatus_cases w s
  · cases hn.symm.trans h
    exact heffect _
  · cases hf.symm.trans h
  · cases hn.symm.trans h
    exact heffect _

theorem effect_of_restore (h : restoreSavedStatus s = .next t) : Effect .restore s t := by
  obtain ⟨-, hn⟩ | ⟨k, -, hk⟩ := restoreSavedStatus_cases s
  · cases hn.symm.trans h
    exact .status s.CPSR rfl (.inl rfl) (.inl rfl) (.inl ⟨rfl, rfl, rfl, rfl⟩)
  · exact effect_of_installStatus (hk.symm.trans h) (.inr rfl)

theorem effect_of_setmode {md : BitVec 3} (h : execSetmode md s = .next t) : Effect (.setmode md) s t := by
  cases hm : modeOfCode md with
  | none => cases (execSetmode_of_none hm s).symm.trans h
  | some m =>
    cases (execSetmode_of_some hm s).symm.trans h
    exact .status { s.CPSR with mode := m } rfl (.inr (.inl ⟨md, rfl⟩)) (.inl rfl) (.inl ⟨rfl, rfl, rfl, rfl⟩)

/-- A register number and its residue modulo 16 name the same register (R43). -/
theorem writeReg_mod_sixteen (r : Nat) (v : Word) (s : State) : writeReg (r % 16) v s = writeReg r v s := by
  have hsel : archSel (r % 16) = archSel r := Fin.ext (Nat.mod_mod r 16)
  rw [writeReg, hsel, writeReg]

/-- Everything an operation that gives a next state can do. -/
theorem exec_effect (h : exec i s = .next t) : Effect i s t := by
  cases i
  case setmode md => exact effect_of_setmode h
  case unpack => exact effect_of_installStatus h (.inl rfl)
  case restore => exact effect_of_restore h
  case wrflags =>
    cases driveNone_next h
    exact .status _ rfl (.inl rfl) (.inl rfl) (.inr (.inl rfl))
  case wrspsr =>
    cases driveNone_next h
    exact .saved s.A rfl (.inl rfl) (fun hmrg => by cases hmrg)
  case mrgspsrf =>
    cases driveNone_next h
    rw [mergeSavedFlags_eq_writeSavedStatus]
    exact .saved _ rfl (.inr rfl) (fun _ => mergeTopFour_low _ _)
  case wrarch r =>
    exact effect_of_writeReg ((congrArg driveNone (writeReg_mod_sixteen r s.A s)).trans h) rfl
  case wrlow | wrhigh | wrsp | wrlr | wrpc => exact effect_of_writeReg h rfl
  case add | sub | adc | sbc => exact effect_of_driveAlu h rfl rfl
  all_goals exact effect_of_driveY h rfl

/-! ### What every operation leaves alone -/

theorem Effect.sameSurroundings (h : Effect i s t) : SameSurroundings s t := by
  cases h <;> simp [SameSurroundings]

/-- The slot written holds `A` (R20). -/
theorem Effect.readSlot_written {r : Nat} (h : Effect i s t) (hr : writtenReg i = some r) :
    readSlot t (slotOf s.CPSR.mode (archSel r)) = s.A := by
  cases h
  case register q hreg =>
    cases hreg.symm.trans hr
    rw [readSlot_withOutputs, writeReg, readSlot_writeSlot, if_pos rfl]
  case answer | alu | status | saved => cases hr.symm.trans ‹writtenReg i = none›

theorem readSlot_writeSavedStatus (w : Word) (s : State) (x : Slot) :
    readSlot (writeSavedStatus w s) x = readSlot s x := by
  obtain ⟨-, hw⟩ | ⟨k, -, hw⟩ := writeSavedStatus_SPSR w s
  · rw [hw]
  · rw [hw, readSlot_withSpsr]

/-- A slot other than the one written keeps its word (R20). -/
theorem Effect.readSlot_of_ne (h : Effect i s t) {x : Slot}
    (hx : ∀ r, writtenReg i = some r → x ≠ slotOf s.CPSR.mode (archSel r)) : readSlot t x = readSlot s x := by
  cases h
  case register r hreg =>
    rw [readSlot_withOutputs, writeReg, readSlot_writeSlot, if_neg (hx r hreg).symm]
  case saved => rw [readSlot_withOutputs, readSlot_writeSavedStatus]
  case status => rw [readSlot_withOutputs, readSlot_withCpsr]
  all_goals exact readSlot_withOutputs s _ _ x

theorem Effect.mode (h : Effect i s t) :
    t.CPSR.mode = s.CPSR.mode ∨ (∃ md, i = .setmode md) ∨ i = .unpack ∨ i = .restore := by
  cases h
  case status hmode _ _ => exact hmode
  all_goals exact .inl (by simp)

theorem Effect.ctl (h : Effect i s t) : t.CPSR.ctl = s.CPSR.ctl ∨ i = .unpack ∨ i = .restore := by
  cases h
  case status _ hctl _ => exact hctl
  all_goals exact .inl (by simp)

theorem Effect.flags (h : Effect i s t) :
    (t.CPSR.N = s.CPSR.N ∧ t.CPSR.Z = s.CPSR.Z ∧ t.CPSR.C = s.CPSR.C ∧ t.CPSR.V = s.CPSR.V) ∨
      i = .wrflags ∨ i = .unpack ∨ i = .restore := by
  cases h
  case status _ _ hflags => exact hflags
  all_goals exact .inl (by simp)

end

/-- Bits of the current mode's saved word that a write has in common with it stay in every SPSR slot. -/
theorem writeSavedStatus_low {w : Word} {s : State}
    (h : w.extractLsb' 0 28 = (readSavedStatus s).extractLsb' 0 28) (k : Fin 5) :
    (writeSavedStatus w s).SPSR[k.val].extractLsb' 0 28 = s.SPSR[k.val].extractLsb' 0 28 := by
  by_cases hk : spsrIndex s.CPSR.mode = some k
  · rw [readSavedStatus_of_some hk] at h
    simpa [writeSavedStatus_of_some hk] using h
  · rw [writeSavedStatus_SPSR_of_ne hk]

/-- MRGSPSRF writes bits 31 to 28 of a saved word alone (R73). -/
theorem Effect.mrgspsrf_low {s t : State} (h : Effect .mrgspsrf s t) (k : Fin 5) :
    t.SPSR[k.val].extractLsb' 0 28 = s.SPSR[k.val].extractLsb' 0 28 := by
  cases h
  case saved w _ _ hlow => exact writeSavedStatus_low (hlow rfl) k
  case register r hreg => cases hreg
  all_goals rfl

/-- Settles O41: each element is compared before and after the five changes an operation can make. -/
theorem onlyListedOperationsWrite : Obligations.OnlyListedOperationsWrite := by
  intro i s t h
  have heffect := exec_effect h
  obtain ⟨hSPSR, hslots⟩ := savedStatusChangesOnlyByItsWriters i s t h
  refine ⟨fun r => heffect.readSlot_written, fun x => heffect.readSlot_of_ne, fun x hx => ?hidden, heffect.mode,
    heffect.ctl, heffect.flags, ?writers, hslots, ?merge, heffect.sameSurroundings⟩
  case hidden => exact heffect.readSlot_of_ne fun r _ => (hx (archSel r)).symm
  case writers =>
    by_cases hwr : i = .wrspsr
    · exact .inr (.inl hwr)
    by_cases hmrg : i = .mrgspsrf
    · exact .inr (.inr hmrg)
    · exact .inl (hSPSR hwr hmrg)
  case merge =>
    rintro rfl k
    exact heffect.mrgspsrf_low k

end Sys2Proof.Machine
end

section
/-! PROOFS. One step and any number of them (00_scope.md R8, R9; 70_reset_and_hazards.md R130, R135): what a step keeps,
whatever request it serves, and what a run keeps, whatever its requests end in. -/

namespace Sys2Proof.Machine

/-! ### The outputs of one request -/

theorem outputsAgree_of_F_none {s : State} (h : s.F = none) : OutputsAgree s := by
  intro f hf
  cases h.symm.trans hf

/-- An operation drives `F` only where it drives a result, and then with the result's N and Z (R50, R101). -/
theorem Effect.outputsAgree {i : Instr} {s t : State} (h : Effect i s t) : OutputsAgree t := by
  cases h
  case alu r c v _ _ =>
    rintro f ⟨⟩
    obtain ⟨hn, hz, -, -⟩ := flagBits_getLsbD (r.getLsbD 31) (r == 0) c v
    exact ⟨r, rfl, hn, by rw [hz, beq_iff_eq]⟩
  all_goals exact outputsAgree_of_F_none rfl

/-! ### Everything a step that gives a next state has done -/

/-- A request that completes was a command, run on its inputs, or RESET. -/
theorem serve_next {q : Request} {s t : State} (h : serve q s = .next t) :
    (∃ c i, exec i (s.withInputs c) = .next t) ∨ t = afterReset s := by
  obtain ⟨c, i, -, -, hs⟩ | ⟨c, e, -, -, hs⟩ | ⟨-, hs⟩ | ⟨c, d, -, hs⟩ := serve_cases q s
  · exact .inl ⟨c, i, hs.symm.trans h⟩
  · cases hs.symm.trans h
  · cases hs.symm.trans h
    exact .inr rfl
  · cases hs.symm.trans h

theorem step_next {s t : State} (h : step s = .next t) :
    (s.pending = [] ∧ t = s.withOutputs none none) ∨
    (∃ q rest, s.pending = q :: rest ∧
      ((∃ c i, exec i ((s.withPending rest).withInputs c) = .next t) ∨ t = afterReset (s.withPending rest))) := by
  obtain ⟨hp, hs⟩ | ⟨q, rest, hp, hs⟩ := step_cases s
  · cases hs.symm.trans h
    exact .inl ⟨hp, rfl⟩
  · exact .inr ⟨q, rest, hp, serve_next (hs.symm.trans h)⟩

/-- Settles O16: what a step leaves on the outputs is one operation's answer, or nothing. -/
theorem stepKeepsOutputsInAgreement : Obligations.StepKeepsOutputsInAgreement := by
  intro s t _ h
  obtain ⟨-, rfl⟩ | ⟨q, rest, -, ⟨c, i, hexec⟩ | rfl⟩ := step_next h
  · exact outputsAgree_of_F_none rfl
  · exact (exec_effect hexec).outputsAgree
  · exact outputsAgree_of_F_none rfl

/-- Settles O17: a fresh block drives no output. -/
theorem outputsAgreeAfterReset : Obligations.OutputsAgreeAfterReset := fun _ _ => outputsAgree_of_F_none rfl

/-- A step takes the first pending request and leaves the others and the two parameters. -/
theorem step_surroundings {s t : State} (h : step s = .next t) :
    t.pending = s.pending.tail ∧ t.resetMode = s.resetMode ∧ t.invalidMPolicy = s.invalidMPolicy := by
  obtain ⟨hp, rfl⟩ | ⟨q, rest, hp, ⟨c, i, hexec⟩ | rfl⟩ := step_next h
  · simp [hp]
  · obtain ⟨-, -, -, hpending, hreset, hpolicy⟩ := (exec_effect hexec).sameSurroundings
    rw [hp]
    exact ⟨hpending, hreset, hpolicy⟩
  · rw [hp]
    exact ⟨rfl, rfl, rfl⟩

/-- Settles O15: an operation leaves the surroundings of the block, and RESET reads the parameters alone. -/
theorem stepKeepsTheParameters : Obligations.StepKeepsTheParameters := fun _ _ h => (step_surroundings h).2

/-! ### Steps by the request presented -/

/-- Settles O7: the step issues the command, and the decoder has its operation. -/
theorem stepRunsTheDecodedCommand : Obligations.StepRunsTheDecodedCommand := by
  intro s c rest i hp hd
  exact (step_of_command hp).trans (issue_of_ok hd _)

theorem step_of_no_request {s : State} (h : s.pending = []) : step s = .next (s.withOutputs none none) := by
  simp only [step, h, idle, driveNone]

/-- Settles O8: a step without a request is the idle one. -/
theorem stepWithNothingPendingIsIdle : Obligations.StepWithNothingPendingIsIdle := fun _ => step_of_no_request

theorem step_of_concurrent {s : State} {c d : Command} {rest : List Request}
    (h : s.pending = .concurrent c d :: rest) : step s = .refused (.concurrentCommands c.cmd d.cmd) := by
  simp only [step, h, serve]

/-- Settles O9: the refusal is the step's own, and a run keeps of it the mark alone. -/
theorem twoCommandsAtOnceAreRefused : Obligations.TwoCommandsAtOnceAreRefused := by
  intro r c d rest hp
  have hstep := step_of_concurrent hp
  obtain ⟨hblock, -, -, hrefusals, -⟩ := advance_of_refused hp hstep
  exact ⟨hstep, hblock, hrefusals⟩

/-! ### A run of any length -/

theorem advance_marks (r : Run) : r.faults <+: (advance r).faults ∧ r.refusals <+: (advance r).refusals := by
  obtain ⟨t, -, ha⟩ | ⟨f, -, ha⟩ | ⟨q, -, ha⟩ := advance_cases r <;> simp [ha]

/-- Settles O13: one step of a run adds a mark at the end or none, and so do any number of them. -/
theorem marksAreNeverCleared : Obligations.MarksAreNeverCleared := by
  intro k
  induction k with
  | zero => exact fun r => ⟨List.prefix_rfl, List.prefix_rfl⟩
  | succ k ih =>
    intro r
    obtain ⟨hfaults, hrefusals⟩ := advance_marks r
    obtain ⟨hfaults', hrefusals'⟩ := ih (advance r)
    exact ⟨hfaults.trans hfaults', hrefusals.trans hrefusals'⟩

theorem afterStop_pending (s : State) : (afterStop s).pending = s.pending.tail := by
  cases hp : s.pending with
  | nil => simp [afterStop, hp]
  | cons q rest =>
    obtain ⟨-, -, -, hrest, -⟩ := afterStop_effect s q rest hp
    exact hrest

/-- A step of a run takes the first pending request, whatever it ends in. -/
theorem advance_pending (r : Run) : (advance r).state.pending = r.state.pending.tail := by
  obtain ⟨t, hstep, ha⟩ | ⟨f, -, ha⟩ | ⟨q, -, ha⟩ := advance_cases r
  · rw [ha]
    exact (step_surroundings hstep).1
  · rw [ha]
    exact afterStop_pending r.state
  · rw [ha]
    exact afterStop_pending r.state

theorem advanceBy_pending (k : Nat) (r : Run) : (advanceBy k r).state.pending = r.state.pending.drop k := by
  induction k generalizing r with
  | zero => rfl
  | succ k ih => rw [advanceBy, ih, advance_pending, List.drop_tail]

/-- Settles O14: `k` steps of a run take the first `k` pending requests. -/
theorem everyRequestIsServedInOrder : Obligations.EveryRequestIsServedInOrder := by
  intro r
  exact ⟨advance_pending r, by rw [advanceBy_pending, List.drop_length]⟩

end Sys2Proof.Machine
end

section
/-! PROOFS. The data operands (30_encoding.md R47): an operation whose "reads" column does not name an operand has the
same outcome whatever stands on that input. -/

namespace Sys2Proof.Machine

/-! ### Other data operands, in a state and in what a step ends in -/

/-- The state with `a` and `b` on the data inputs. -/
def State.withData (a b : Word) (s : State) : State := { s with A := a, B := b }

/-- The end of a step with `a` and `b` on the data inputs of its next state. -/
def outcomeWithData (a b : Word) : Host.Outcome State Fault Refusal → Host.Outcome State Fault Refusal
  | .next s => .next (s.withData a b)
  | .fault f => .fault f
  | .refused r => .refused r

section
variable (a b : Word) (s : State)

theorem State.withData_CPSR : (s.withData a b).CPSR = s.CPSR := rfl
theorem State.withData_invalidMPolicy : (s.withData a b).invalidMPolicy = s.invalidMPolicy := rfl

/-! ### The shared operations carry them along -/

theorem writeReg_withData (r : Nat) (v : Word) : writeReg r v (s.withData a b) = (writeReg r v s).withData a b := by
  unfold writeReg
  rw [State.withData_CPSR]
  cases slotOf s.CPSR.mode (archSel r) <;> rfl

theorem writeSavedStatus_withData (v : Word) :
    writeSavedStatus v (s.withData a b) = (writeSavedStatus v s).withData a b := by
  unfold writeSavedStatus
  rw [State.withData_CPSR]
  cases spsrIndex s.CPSR.mode <;> rfl

theorem mergeSavedFlags_withData (v : Word) :
    mergeSavedFlags v (s.withData a b) = (mergeSavedFlags v s).withData a b := by
  rw [mergeSavedFlags_eq_writeSavedStatus, mergeSavedFlags_eq_writeSavedStatus]
  exact writeSavedStatus_withData a b s _

theorem installStatus_withData (v : Word) :
    installStatus v (s.withData a b) = outcomeWithData a b (installStatus v s) := by
  unfold installStatus
  rw [State.withData_invalidMPolicy]
  cases decodeM (v.extractLsb' 0 5) with
  | some m => rfl
  | none => cases s.invalidMPolicy <;> rfl

theorem restoreSavedStatus_withData :
    restoreSavedStatus (s.withData a b) = outcomeWithData a b (restoreSavedStatus s) := by
  unfold restoreSavedStatus
  rw [State.withData_CPSR]
  cases spsrIndex s.CPSR.mode with
  | none => rfl
  | some k => exact installStatus_withData a b s _

theorem execSetmode_withData (md : BitVec 3) :
    execSetmode md (s.withData a b) = outcomeWithData a b (execSetmode md s) := by
  unfold execSetmode
  cases modeOfCode md <;> rfl

variable {a b}

/-- An operation's outcome does not depend on a data operand that it does not read (R47). -/
theorem exec_withData {i : Instr} (hA : readsA i = true → a = s.A) (hB : readsB i = true → b = s.B) :
    exec i (s.withData a b) = outcomeWithData a b (exec i s) := by
  cases i
  case setmode md => exact execSetmode_withData a b s md
  case restore => exact restoreSavedStatus_withData a b s
  case unpack =>
    obtain rfl := hA rfl
    exact installStatus_withData s.A b s s.A
  case wrflags =>
    obtain rfl := hA rfl
    rfl
  case wrspsr =>
    obtain rfl := hA rfl
    exact congrArg driveNone (writeSavedStatus_withData s.A b s s.A)
  case mrgspsrf =>
    obtain rfl := hA rfl
    exact congrArg driveNone (mergeSavedFlags_withData s.A b s s.A)
  case wrlow | wrhigh | wrarch | wrsp | wrlr | wrpc =>
    obtain rfl := hA rfl
    exact congrArg driveNone (writeReg_withData s.A b s _ s.A)
  case add | sub | adc | sbc =>
    obtain rfl := hA rfl
    obtain rfl := hB rfl
    rfl
  all_goals rfl

end

/-- What an outcome with other data operands says, ending by ending. -/
theorem outcomeWithData_cases {a b : Word} {x x' : Host.Outcome State Fault Refusal} {g : State → State}
    (hx : x' = outcomeWithData a b x) (hg : ∀ t, x = .next t → t.withData a b = g t) :
    (∀ t, x = .next t → x' = .next (g t)) ∧ (∀ f, x = .fault f → x' = .fault f) ∧
      (∀ q, x = .refused q → x' = .refused q) := by
  subst hx
  refine ⟨fun t ht => ?_, fun f hf => ?_, fun q hq => ?_⟩
  · rw [← hg t ht, ht]; rfl
  · rw [hf]; rfl
  · rw [hq]; rfl

/-- Settles O18: the operand replaced is unread, and the other one, which the operation keeps, is as it was. -/
theorem unreadOperandsDoNotMatter : Obligations.UnreadOperandsDoNotMatter := by
  intro i s v
  constructor
  · intro hA
    have hexec : exec i { s with A := v } = outcomeWithData v s.B (exec i s) :=
      exec_withData (a := v) (b := s.B) s (by simp [hA]) (fun _ => rfl)
    refine outcomeWithData_cases hexec fun t ht => ?_
    obtain ⟨-, -, hB, -⟩ := (exec_effect ht).sameSurroundings
    rw [← hB]
    rfl
  · intro hB
    have hexec : exec i { s with B := v } = outcomeWithData s.A v (exec i s) :=
      exec_withData (a := s.A) (b := v) s (fun _ => rfl) (by simp [hB])
    refine outcomeWithData_cases hexec fun t ht => ?_
    obtain ⟨-, hA, -⟩ := (exec_effect ht).sameSurroundings
    rw [← hA]
    rfl

end Sys2Proof.Machine
end

section
/-! PROOFS. What the current mode decides (10_state.md R20, R22; 60_exceptions.md R123): an operation reads no bank and
no saved word that the mode does not reach, and no operation is stopped for the mode it is issued in. -/

namespace Sys2Proof.Machine

/-! ### Two states that agree on the status and on what the mode `m` reaches -/

/-- The same current status, and the same words in the slots and in the SPSR that the mode `m` reaches. -/
def AgreeIn (m : Mode) (s s' : State) : Prop :=
  s'.CPSR = s.CPSR ∧ (∀ r : Fin 16, readSlot s' (slotOf m r) = readSlot s (slotOf m r)) ∧
    ∀ k, spsrIndex m = some k → s'.SPSR[k.val] = s.SPSR[k.val]

section
variable {m : Mode} {s s' : State}

theorem agreeIn_of_agreeWhereVisible (h : AgreeWhereVisible s s') : AgreeIn s.CPSR.mode s s' := by
  obtain ⟨hcpsr, -, hreg, hspsr⟩ := h
  refine ⟨hcpsr, fun r => ?_, hspsr⟩
  simpa [readReg, hcpsr] using hreg r

theorem AgreeIn.cpsr_eq (h : AgreeIn m s s') : s'.CPSR = s.CPSR := h.1

theorem AgreeIn.withOutputs (h : AgreeIn m s s') (y : Option Word) (f : Option (BitVec 4)) :
    AgreeIn m (s.withOutputs y f) (s'.withOutputs y f) := by
  simpa [AgreeIn] using h

theorem AgreeIn.withCpsr (h : AgreeIn m s s') (c : Cpsr) : AgreeIn m (s.withCpsr c) (s'.withCpsr c) := by
  obtain ⟨-, hslot, hspsr⟩ := h
  exact ⟨rfl, by simpa using hslot, hspsr⟩

theorem AgreeIn.writeSlot (h : AgreeIn m s s') (x : Slot) (v : Word) :
    AgreeIn m (writeSlot s x v) (writeSlot s' x v) := by
  obtain ⟨hcpsr, hslot, hspsr⟩ := h
  exact ⟨by simpa using hcpsr, by simp [readSlot_writeSlot, hslot], by simpa using hspsr⟩

theorem AgreeIn.withSpsr (h : AgreeIn m s s') (k : Fin 5) (w : Word) :
    AgreeIn m (s.withSpsr k w) (s'.withSpsr k w) := by
  obtain ⟨hcpsr, hslot, hspsr⟩ := h
  refine ⟨hcpsr, by simpa using hslot, fun j hj => ?_⟩
  simp [Vector.getElem_set, hspsr j hj]

end

/-- The same outputs, the same status and the same words where the mode `m` reaches. -/
def SeenAlike (m : Mode) (t t' : State) : Prop := t'.Y = t.Y ∧ t'.F = t.F ∧ AgreeIn m t t'

/-! ### The same outputs and the same status from states that agree -/

theorem installStatus_of_none_keepMode {w : Word} {s : State} (h : decodeM (w.extractLsb' 0 5) = none)
    (hp : s.invalidMPolicy = .keepMode) :
    installStatus w s = .next ((s.withCpsr (unpackStatus w s.CPSR.mode)).withOutputs none none) := by
  simp [installStatus, h, hp, driveNone]

section
variable {m : Mode} {u u' t : State} (hagree : AgreeIn m u u')
include hagree

theorem driveY_seenAlike {y y' : Word} (hy : y' = y) (h : driveY y u = .next t) :
    ∃ t', driveY y' u' = .next t' ∧ SeenAlike m t t' := by
  subst hy
  exact ⟨_, rfl, driveY_next h ▸ ⟨rfl, rfl, hagree.withOutputs _ _⟩⟩

theorem driveNone_seenAlike (h : driveNone u = .next t) : ∃ t', driveNone u' = .next t' ∧ SeenAlike m t t' :=
  ⟨_, rfl, driveNone_next h ▸ ⟨rfl, rfl, hagree.withOutputs _ _⟩⟩

theorem driveAlu_seenAlike {x x' : AluResult} (hx : x' = x) (h : driveAlu x u = .next t) :
    ∃ t', driveAlu x' u' = .next t' ∧ SeenAlike m t t' := by
  subst hx
  exact ⟨_, rfl, driveAlu_next h ▸ ⟨rfl, rfl, hagree.withOutputs _ _⟩⟩

theorem installStatus_seenAlike (hpolicy : u'.invalidMPolicy = u.invalidMPolicy) {w w' : Word} (hw : w' = w)
    (h : installStatus w u = .next t) : ∃ t', installStatus w' u' = .next t' ∧ SeenAlike m t t' := by
  subst hw
  obtain ⟨n, hn, hu⟩ | ⟨-, -, hf⟩ | ⟨hn, hp, hu⟩ := installStatus_cases w' u
  · cases hu.symm.trans h
    exact ⟨_, installStatus_of_some hn u', rfl, rfl, (hagree.withCpsr _).withOutputs none none⟩
  · cases hf.symm.trans h
  · cases hu.symm.trans h
    refine ⟨_, installStatus_of_none_keepMode hn (hpolicy.trans hp), rfl, rfl, ?_⟩
    rw [hagree.cpsr_eq]
    exact (hagree.withCpsr _).withOutputs none none

theorem execSetmode_seenAlike {md : BitVec 3} (h : execSetmode md u = .next t) :
    ∃ t', execSetmode md u' = .next t' ∧ SeenAlike m t t' := by
  cases hm : modeOfCode md with
  | none => cases (execSetmode_of_none hm u).symm.trans h
  | some n =>
    cases (execSetmode_of_some hm u).symm.trans h
    refine ⟨_, execSetmode_of_some hm u', rfl, rfl, ?_⟩
    rw [setMode, setMode, hagree.cpsr_eq]
    exact (hagree.withCpsr _).withOutputs none none

end

/-! ### What an operation reads and writes, in two states that agree where the current mode reaches -/

section
variable {s s' t : State} (h : AgreeWhereVisible s s')
include h

theorem readReg_of_agree (r : Nat) : readReg s' r = readReg s r := by
  obtain ⟨hcpsr, hslot, -⟩ := agreeIn_of_agreeWhereVisible h
  rw [readReg, hcpsr, hslot, readReg]

theorem readSavedStatus_of_agree : readSavedStatus s' = readSavedStatus s := by
  obtain ⟨hcpsr, -, -, hspsr⟩ := h
  unfold readSavedStatus
  rw [hcpsr]
  cases hk : spsrIndex s.CPSR.mode with
  | none => rfl
  | some k => exact hspsr k hk

theorem setFlags_of_agree {w w' : Word} (hw : w' = w) : AgreeIn s.CPSR.mode (setFlags w s) (setFlags w' s') := by
  subst hw
  have hagree := agreeIn_of_agreeWhereVisible h
  rw [setFlags, setFlags, hagree.cpsr_eq]
  exact hagree.withCpsr _

theorem writeReg_of_agree (r : Nat) {v v' : Word} (hv : v' = v) :
    AgreeIn s.CPSR.mode (writeReg r v s) (writeReg r v' s') := by
  subst hv
  have hagree := agreeIn_of_agreeWhereVisible h
  rw [writeReg, writeReg, hagree.cpsr_eq]
  exact hagree.writeSlot _ _

theorem writeSavedStatus_of_agree {w w' : Word} (hw : w' = w) :
    AgreeIn s.CPSR.mode (writeSavedStatus w s) (writeSavedStatus w' s') := by
  subst hw
  have hagree := agreeIn_of_agreeWhereVisible h
  unfold writeSavedStatus
  rw [hagree.cpsr_eq]
  cases spsrIndex s.CPSR.mode with
  | none => exact hagree
  | some k => exact hagree.withSpsr k _

theorem restoreSavedStatus_seenAlike (hpolicy : s'.invalidMPolicy = s.invalidMPolicy)
    (ht : restoreSavedStatus s = .next t) :
    ∃ t', restoreSavedStatus s' = .next t' ∧ SeenAlike s.CPSR.mode t t' := by
  have hagree := agreeIn_of_agreeWhereVisible h
  have ⟨hcpsr, _, hspsr⟩ := hagree
  cases hk : spsrIndex s.CPSR.mode with
  | none =>
    rw [restoreSavedStatus_of_none hk] at ht
    rw [restoreSavedStatus_of_none (by rw [hcpsr, hk])]
    exact driveNone_seenAlike hagree ht
  | some k =>
    rw [restoreSavedStatus_of_some hk] at ht
    rw [restoreSavedStatus_of_some (by rw [hcpsr, hk])]
    exact installStatus_seenAlike hagree hpolicy (hspsr k hk) ht

/-- No operation reads a bank or a saved word that the current mode does not reach (R20, R22). -/
theorem exec_seenAlike {i : Instr} (ht : exec i s = .next t) :
    ∃ t', exec i s' = .next t' ∧ SeenAlike s.CPSR.mode t t' := by
  have hagree := agreeIn_of_agreeWhereVisible h
  have ⟨_, ⟨_, hA, hB, _, _, hpolicy⟩, _⟩ := h
  cases i
  case setmode => exact execSetmode_seenAlike hagree ht
  case restore => exact restoreSavedStatus_seenAlike h hpolicy ht
  case unpack => exact installStatus_seenAlike hagree hpolicy hA ht
  case curmode => exact driveY_seenAlike hagree (congrArg (fun c => (code c.mode).setWidth 32) hagree.cpsr_eq) ht
  case bank1314 =>
    exact driveY_seenAlike hagree (congrArg (fun c => BitVec.ofNat 32 (bank1314 c.mode).val) hagree.cpsr_eq) ht
  case bank812 =>
    exact driveY_seenAlike hagree (congrArg (fun c => BitVec.ofNat 32 (bank812 c.mode).val) hagree.cpsr_eq) ht
  case spsridx =>
    exact driveY_seenAlike hagree (congrArg (fun c => spsrIndexWord (spsrIndex c.mode)) hagree.cpsr_eq) ht
  case pack => exact driveY_seenAlike hagree (congrArg packStatus hagree.cpsr_eq) ht
  case rdspsr => exact driveY_seenAlike hagree (readSavedStatus_of_agree h) ht
  case rdlow | rdhigh | rdarch | rdsp | rdlr | rdpc => exact driveY_seenAlike hagree (readReg_of_agree h _) ht
  case wrflags => exact driveNone_seenAlike (setFlags_of_agree h hA) ht
  case wrspsr => exact driveNone_seenAlike (writeSavedStatus_of_agree h hA) ht
  case mrgspsrf =>
    refine driveNone_seenAlike ?_ ht
    rw [mergeSavedFlags_eq_writeSavedStatus, mergeSavedFlags_eq_writeSavedStatus]
    exact writeSavedStatus_of_agree h (by rw [hA, readSavedStatus_of_agree h])
  case wrlow | wrhigh | wrarch | wrsp | wrlr | wrpc => exact driveNone_seenAlike (writeReg_of_agree h _ hA) ht
  case add | sub | adc | sbc => exact driveAlu_seenAlike hagree (by rw [hA, hB]) ht

end

/-- Settles O42: the outputs and the status are alike, and so is every word the mode of the first state reaches. -/
theorem hiddenBanksAreUnobservable : Obligations.HiddenBanksAreUnobservable := by
  intro i s s' t h ht
  obtain ⟨t', ht', hY, hF, hcpsr, hslot, hspsr⟩ := exec_seenAlike h ht
  exact ⟨t', ht', hY, hF, hcpsr, fun r => by simpa [readReg] using hslot r, hspsr⟩

/-! ### An operation issued in User mode -/

theorem installStatus_next_of_policy {w : Word} {s s' t : State} (hpolicy : s'.invalidMPolicy = s.invalidMPolicy)
    (h : installStatus w s = .next t) : ∃ t', installStatus w s' = .next t' := by
  obtain ⟨m, hm, -⟩ | ⟨-, -, hf⟩ | ⟨hm, hp, -⟩ := installStatus_cases w s
  · exact ⟨_, installStatus_of_some hm s'⟩
  · cases hf.symm.trans h
  · exact ⟨_, installStatus_of_none_keepMode hm (hpolicy.trans hp)⟩

/-- Settles O28: SETMODE is refused for its code alone, UNPACK faults for `A` and the policy alone, and in User mode
there is no saved word for RESTORE to fault on. -/
theorem noOperationIsStoppedForUserMode : Obligations.NoOperationIsStoppedForUserMode := by
  rintro i s m ⟨t, ht⟩
  cases hx : exec i (setMode .User s) with
  | next u => exact ⟨u, rfl⟩
  | refused q =>
    obtain rfl := eq_setmode_seven_of_exec_refused hx
    cases ht
  | fault f =>
    obtain rfl | rfl := unpack_or_restore_of_exec_fault hx
    · obtain ⟨u, hu⟩ := installStatus_next_of_policy (w := s.A) (s := setMode m s) (s' := setMode .User s) rfl ht
      cases hx.symm.trans hu
    · cases hx.symm.trans (restoreSavedStatus_of_none (s := setMode .User s) rfl)

end Sys2Proof.Machine
end

section
/-! PROOFS. The packed status word in both directions (40_mode_state.md R60 to R65; 92_eei_decisions.md D7): UNPACK
after PACK, PACK after UNPACK, WRFLAGS as an UNPACK, and what a change of the mode leaves where it is. -/

namespace Sys2Proof.Machine

/-! ### PACK and UNPACK undo one another -/

theorem unpackStatus_packStatus (c : Cpsr) : unpackStatus (packStatus c) c.mode = c := by
  have hbit := packStatus_getLsbD_flags c
  obtain ⟨hN, hZ, hC, hV⟩ := flagBits_getLsbD c.N c.Z c.C c.V
  rw [unpackStatus, packStatus_ctl, (hbit 3).trans hN, (hbit 2).trans hZ, (hbit 1).trans hC, (hbit 0).trans hV]

/-- Installing the word a status packs into installs that status, under either policy. -/
theorem installStatus_packStatus (c : Cpsr) (s : State) :
    installStatus (packStatus c) s = .next ((s.withCpsr c).withOutputs none none) := by
  have hmode : decodeM ((packStatus c).extractLsb' 0 5) = some c.mode := decodeM_eq_some.2 (packStatus_modeField c)
  rw [installStatus_of_some hmode, unpackStatus_packStatus]

theorem packStatus_unpackStatus {w : Word} {m : Mode} (h : decodeM (w.extractLsb' 0 5) = some m) :
    packStatus (unpackStatus w m) = w := by
  rw [packStatus_fields, unpackStatus, ← decodeM_eq_some.1 h]
  apply BitVec.eq_of_getLsbD_eq
  intro i hi
  simp only [BitVec.getLsbD_append, BitVec.getLsbD_extractLsb']
  interval_cases i <;> simp

/-- What PACK answers, taken from the state it leaves. -/
theorem eq_packStatus_of_pack {s t : State} {w : Word} (h : exec .pack s = .next t) (hw : t.Y = some w) :
    w = packStatus s.CPSR := by
  rw [driveY_next h] at hw
  exact (Option.some.inj hw).symm

/-- Settles O24: a packed status installs itself, and a word with a valid mode field packs what it installs. -/
theorem packAndUnpackRoundTrip : Obligations.PackAndUnpackRoundTrip := by
  constructor
  · intro s t w h hw
    rw [eq_packStatus_of_pack h hw]
    exact installStatus_packStatus s.CPSR { s with A := packStatus s.CPSR }
  · intro s hvalid
    obtain ⟨m, hm⟩ := validModeField_iff.1 hvalid
    exact ⟨_, installStatus_of_some hm s, driveY_of_eq (packStatus_unpackStatus hm) _⟩

/-! ### WRFLAGS as an UNPACK -/

/-- The status with its flags from `w[31:28]`, as WRFLAGS leaves it (R64). -/
def Cpsr.withFlagsOf (w : Word) (c : Cpsr) : Cpsr :=
  { c with N := w.getLsbD 31, Z := w.getLsbD 30, C := w.getLsbD 29, V := w.getLsbD 28 }

theorem setFlags_eq_withCpsr (w : Word) (s : State) : setFlags w s = s.withCpsr (s.CPSR.withFlagsOf w) := rfl

/-- Replacing the top four bits of a packed status replaces its flags. -/
theorem mergeTopFour_packStatus (w : Word) (c : Cpsr) :
    mergeTopFour w (packStatus c) = packStatus (c.withFlagsOf w) := by
  rw [packStatus_fields, packStatus_fields, mergeTopFour, Cpsr.withFlagsOf]
  generalize modeField c.mode = f
  apply BitVec.eq_of_getLsbD_eq
  intro i hi
  simp only [BitVec.getLsbD_or, BitVec.getLsbD_and, BitVec.getLsbD_append]
  interval_cases i <;> simp

/-- Settles O26: the merged word is the packing of the status that WRFLAGS leaves. -/
theorem wrflagsIsUnpackOfTheMergedWord : Obligations.WrflagsIsUnpackOfTheMergedWord := by
  intro s t w h hw
  refine ⟨_, rfl, ?_⟩
  rw [eq_packStatus_of_pack h hw, ← mergeTopFour, mergeTopFour_packStatus]
  exact installStatus_packStatus _ _

/-! ### A change of the mode -/

/-- The operations that write the mode touch no register slot and no SPSR, and drive no flags. -/
theorem Effect.of_modeChange {i : Instr} {s t : State} (h : Effect i s t)
    (hi : (∃ md, i = .setmode md) ∨ i = .unpack ∨ i = .restore) :
    SameRegisters s t ∧ t.SPSR = s.SPSR ∧ t.F = none := by
  cases h
  case register r hreg => obtain ⟨md, rfl⟩ | rfl | rfl := hi <;> cases hreg
  case alu hB => obtain ⟨md, rfl⟩ | rfl | rfl := hi <;> cases hB
  case saved hw _ => obtain rfl | rfl := hw <;> simp at hi
  all_goals exact ⟨⟨rfl, rfl, rfl, rfl⟩, rfl, rfl⟩

theorem readSlot_of_sameRegisters {s t : State} (h : SameRegisters s t) (x : Slot) : readSlot t x = readSlot s x := by
  obtain ⟨hlow, hmid, hspLr, hpc⟩ := h
  cases x <;> simp only [readSlot, hlow, hmid, hspLr, hpc]

theorem regIn_eq_readSlot (s : State) (m : Mode) (r : Nat) : regIn s m r = readSlot s (slotOf m (archSel r)) :=
  readSlot_setMode m s _

/-- A query of a state that drives no flags changes `Y` alone. -/
theorem driveY_of_F_none {s : State} (h : s.F = none) (y : Word) : driveY y s = .next { s with Y := some y } := by
  rw [driveY, State.withOutputs, ← h]

/-- Settles O27: the slots stay, and the new mode decides which of them a register number and the multiplexer reach. -/
theorem modeChangeOnlyRedirects : Obligations.ModeChangeOnlyRedirects := by
  intro i s t hi h
  obtain ⟨hregs, hspsr, hF⟩ := (exec_effect h).of_modeChange hi
  have hslot := readSlot_of_sameRegisters hregs
  refine ⟨hregs, hspsr, fun r => ?_, fun m r => ?_, fun k hk => ?_, fun hm => ?_⟩
  · rw [regIn_eq_readSlot, readReg, hslot]
  · rw [regIn_eq_readSlot, regIn_eq_readSlot, hslot]
  · have hsaved : readSavedStatus t = s.SPSR[k.val] := by rw [readSavedStatus_of_some (mem_spsrSlots.1 hk), hspsr]
    exact hsaved ▸ driveY_of_F_none hF _
  · exact congrArg (driveY · t) (readSavedStatus_of_none (spsrIndex_userOrSystem hm))

/-! ### Reset and the policy KeepMode -/

theorem packStatus_reset (m : Mode) : packStatus (Cpsr.reset m) = (modeField m).setWidth 32 := by
  cases m <;> rfl

/-- Settles O12: with every other field 0, the packed status is the mode field. -/
theorem statusWordAfterResetIsTheModeField : Obligations.StatusWordAfterResetIsTheModeField := by
  intro m p f hf
  obtain rfl := mem_modeFields.1 hf
  exact driveY_of_eq (packStatus_reset m) _

/-- Settles O23: under KeepMode the word is installed with the current mode, by UNPACK and by RESTORE of a slot. -/
theorem keepModePolicyLeavesTheMode : Obligations.KeepModePolicyLeavesTheMode := by
  intro s hp
  constructor
  · intro hinvalid
    exact installStatus_of_none_keepMode (decodeM_eq_none_of_not_valid hinvalid) hp
  · intro k hk hinvalid
    exact (restoreSavedStatus_of_some (mem_spsrSlots.1 hk)).trans
      (installStatus_of_none_keepMode (decodeM_eq_none_of_not_valid hinvalid) hp)

end Sys2Proof.Machine
end

section
/-! PROOFS. A register write seen by a read (42_register_file.md R94, R95; 70_reset_and_hazards.md R133): the slot map
gives different register numbers different slots, whatever the two modes are. -/

namespace Sys2Proof.Machine

/-- The register number that reaches a slot, in the modes that reach it (R80 read backwards). -/
def Slot.number : Slot → Nat
  | .low i => i.val
  | .mid _ j => 8 + j.val
  | .spLr _ k => 13 + k.val
  | .pc => 15

theorem number_slotOf (m : Mode) (r : Fin 16) : (slotOf m r).number = r.val := by
  obtain ⟨i, rfl⟩ | ⟨j, rfl⟩ | ⟨k, rfl⟩ | rfl := register_cases r
  · rw [slotOf_low]; rfl
  · rw [slotOf_mid]; rfl
  · rw [slotOf_spLr]; rfl
  · rfl

/-- Two register numbers reach one slot exactly if they are the same number and their modes share its slot (R21). -/
theorem slotOf_eq_slotOf_iff {m m' : Mode} {r q : Fin 16} :
    slotOf m r = slotOf m' q ↔ q = r ∧ sharesSlot m m' r.val = true := by
  rw [← modesShareSlotsAsStated]
  constructor
  · intro h
    have hnumber : r.val = q.val := by rw [← number_slotOf m r, h, number_slotOf]
    obtain rfl := Fin.ext hnumber
    exact ⟨rfl, h⟩
  · rintro ⟨rfl, h⟩
    exact h

/-- Settles O39: WRARCH stores `A` in one slot, which another mode's register is exactly if it shares it. -/
theorem bankedWritesAreIsolated : Obligations.BankedWritesAreIsolated := by
  intro s r
  refine ⟨_, rfl, fun m q => ?_⟩
  rw [regIn_eq_readSlot, regIn_eq_readSlot, readSlot_withOutputs, writeReg, readSlot_writeSlot, archSel_fin,
    archSel_fin]
  simp only [slotOf_eq_slotOf_iff]

theorem archSel_eq_iff {n k : Nat} (hn : n < 16) (hk : k < 16) : archSel n = archSel k ↔ n = k := by
  rw [archSel_of_mod (Nat.mod_eq_of_lt hn) hn, archSel_of_mod (Nat.mod_eq_of_lt hk) hk, Fin.mk.injEq]

/-- A register read after a register write in the same mode goes by the two numbers alone. -/
theorem readReg_writeReg_of_lt {n k : Nat} (hn : n < 16) (hk : k < 16) (v : Word) (s : State) :
    readReg (writeReg n v s) k = if n = k then v else readReg s k := by
  have hslot : slotOf s.CPSR.mode (archSel n) = slotOf s.CPSR.mode (archSel k) ↔ n = k := by
    rw [slotOf_eq_slotOf_iff, eq_comm, archSel_eq_iff hn hk]
    simp [sharesSlot]
  rw [readReg_writeReg]
  simp only [hslot]

/-! ### A read in the command after a write -/

section
variable (s : State) (r : Nat)

@[simp] theorem readReg_withOutputs (y : Option Word) (f : Option (BitVec 4)) :
    readReg (s.withOutputs y f) r = readReg s r := readSlot_withOutputs s y f _

@[simp] theorem readReg_withInputs (c : Command) : readReg (s.withInputs c) r = readReg s r := readSlot_withInputs s c _

@[simp] theorem readReg_withPending (p : List Request) : readReg (s.withPending p) r = readReg s r :=
  readSlot_withPending s p _

end

/-- Settles O40: the read is run in the state the write leaves, where its number is compared with the one written. -/
theorem readAfterWriteSeesTheWrite : Obligations.ReadAfterWriteSeesTheWrite := by
  intro s n k v hn hk
  have hwr : decode (encode (.wrarch n)) = .ok (.wrarch n) := decode_encode (decide_eq_true hn)
  have hrd : decode (encode (.rdarch k)) = .ok (.rdarch k) := decode_encode (decide_eq_true hk)
  have hrun (s : State) (hp : s.pending = [asm (.wrarch n) v 0, asm (.rdarch k) 0 0]) :
      ∃ t, Host.Core.run core 2 s = .next t ∧ t.Y = some (if n = k then v else readReg s k) := by
    refine ⟨_, (run_asm_of_next hp hwr rfl).trans
      (run_asm_of_next (a := 0) (b := 0) (rest := []) (by simp) hrd rfl), ?_⟩
    simp [readReg_writeReg_of_lt hn hk]
  exact hrun _ rfl

end Sys2Proof.Machine
end

section
/-! PROOFS. Signed overflow (43_flag_alu.md R104 to R107): each operation's result is the exact signed result modulo
2^32, so the sign form of V and its range form agree, and so do the operations that compute the same result. -/

namespace Sys2Proof.Machine

/-! ### Signs and signed values -/

theorem getLsbD_31_eq_decide (w : Word) : w.getLsbD 31 = decide (w.toInt < 0) := by
  have hmsb : w.getLsbD 31 = w.msb := rfl
  rw [hmsb, BitVec.msb_eq_toInt]

theorem sign_eq_iff (v w : Word) : v.getLsbD 31 = w.getLsbD 31 ↔ (v.toInt < 0 ↔ w.toInt < 0) := by
  rw [getLsbD_31_eq_decide, getLsbD_31_eq_decide, decide_eq_decide]

theorem toInt_range (w : Word) : -2 ^ 31 ≤ w.toInt ∧ w.toInt < 2 ^ 31 := ⟨BitVec.le_toInt w, BitVec.toInt_lt⟩

theorem toInt_complement (w : Word) : (~~~w).toInt = -w.toInt - 1 := by
  have hnot := BitVec.toNat_not (x := w)
  rw [BitVec.toInt_eq_toNat_cond, BitVec.toInt_eq_toNat_cond]
  omega

theorem toInt_modEq_toNat (w : Word) : w.toInt ≡ w.toNat [ZMOD 2 ^ 32] := by
  rw [BitVec.toInt_eq_toNat_bmod]
  exact Int.bmod_emod

theorem toInt_ofInt_modEq (d : Int) : (BitVec.ofInt 32 d).toInt ≡ d [ZMOD 2 ^ 32] := by
  rw [BitVec.toInt_ofInt]
  exact Int.bmod_emod

/-- The word of an exact sum has the sum of the signed values, modulo 2^32. -/
theorem toInt_ofNat_add (a b : Word) (c : Nat) :
    (BitVec.ofNat 32 (a.toNat + b.toNat + c)).toInt ≡ a.toInt + b.toInt + c [ZMOD 2 ^ 32] := by
  have hsum : ((a.toNat + b.toNat + c : Nat) : Int) ≡ a.toInt + b.toInt + c [ZMOD 2 ^ 32] := by
    push_cast
    exact ((toInt_modEq_toNat a).symm.add (toInt_modEq_toNat b).symm).add_right _
  rw [← BitVec.ofInt_natCast]
  exact (toInt_ofInt_modEq _).trans hsum

/-- The word of an exact difference has the difference of the signed values, modulo 2^32. -/
theorem toInt_ofInt_sub (a b : Word) (c : Int) :
    (BitVec.ofInt 32 (a.toNat - b.toNat - c)).toInt ≡ a.toInt - b.toInt - c [ZMOD 2 ^ 32] :=
  (toInt_ofInt_modEq _).trans (((toInt_modEq_toNat a).symm.sub (toInt_modEq_toNat b).symm).sub_right _)

/-! ### The sign form of V and its range form -/

section
variable {a b r : Word} {c : Int} (hc : 0 ≤ c ∧ c ≤ 1)
include hc

/-- With `r` the word of the exact sum of the operands and a carry, R102's form of V is R104's. -/
theorem overflowAdd_eq_outsideSigned (hr : r.toInt ≡ a.toInt + b.toInt + c [ZMOD 2 ^ 32]) :
    overflowAdd a b r = outsideSigned (a.toInt + b.toInt + c) := by
  have ha := toInt_range a
  have hb := toInt_range b
  have hrange := toInt_range r
  rw [Bool.eq_iff_iff, overflowAdd_iff, outsideSigned_iff, Ne, sign_eq_iff, sign_eq_iff]
  unfold Int.ModEq at hr
  omega

/-- With `r` the word of the exact difference of the operands less a borrow, R103's form of V is the range form. -/
theorem overflowSub_eq_outsideSigned (hr : r.toInt ≡ a.toInt - b.toInt - c [ZMOD 2 ^ 32]) :
    overflowSub a b r = outsideSigned (a.toInt - b.toInt - c) := by
  have ha := toInt_range a
  have hb := toInt_range b
  have hrange := toInt_range r
  rw [Bool.eq_iff_iff, overflowSub_iff, outsideSigned_iff, Ne, Ne, sign_eq_iff, sign_eq_iff]
  unfold Int.ModEq at hr
  omega

end

/-! ### The identities between the four operations, on their results (R107) -/

section
variable (a b : Word) (ci : Bool)

theorem b2n_le_one : (0 : Int) ≤ b2n ci ∧ (b2n ci : Int) ≤ 1 := by cases ci <;> decide

theorem aluAdc_V : (aluAdc a b ci).V = overflowAdd a b (aluAdc a b ci).r :=
  (overflowAdd_eq_outsideSigned (b2n_le_one ci) (toInt_ofNat_add a b (b2n ci))).symm

theorem aluSbc_V : (aluSbc a b ci).V = outsideSigned (sint a - sint b - (1 - b2n ci)) := by
  have hci := b2n_le_one ci
  exact overflowSub_eq_outsideSigned (c := 1 - b2n ci) (by omega) (toInt_ofInt_sub a b _)

theorem aluAdc_false : aluAdc a b false = aluAdd a b := congrArg (aluResult _ _) (aluAdc_V a b false)

theorem aluSbc_true : aluSbc a b true = aluSub a b := by
  have hd : (uint a : Int) - uint b - (1 - (b2n true : Int)) = uint a - uint b := by simp
  have hC : ((uint a : Int) - uint b ≥ 0) = (uint a ≥ uint b) := by simp
  simp only [aluSbc, aluSub, hd, hC]

/-- The exact sum with the complement is the exact difference and 2^32. -/
theorem uint_add_complement :
    ((uint a + uint (~~~b) + b2n ci : Nat) : Int) = uint a - uint b - (1 - b2n ci) + 2 ^ 32 := by
  have hnot : uint (~~~b) = 2 ^ 32 - 1 - uint b := BitVec.toNat_not
  have hb : uint b < 2 ^ 32 := b.isLt
  omega

theorem sint_add_complement : sint a + sint (~~~b) + b2n ci = sint a - sint b - (1 - b2n ci) := by
  have hnot : sint (~~~b) = -sint b - 1 := toInt_complement b
  omega

theorem ofInt_add_two_pow (d : Int) : BitVec.ofInt 32 (d + 2 ^ 32) = BitVec.ofInt 32 d := by
  apply BitVec.eq_of_toNat_eq
  rw [← Int.natCast_inj, cast_toNat_ofInt, cast_toNat_ofInt, Int.add_emod_right]

/-- The result, C and V agree, and N and Z are those of the result. -/
theorem aluSbc_eq_aluAdc_complement : aluSbc a b ci = aluAdc a (~~~b) ci := by
  have hsum := uint_add_complement a b ci
  have hr : (aluSbc a b ci).r = (aluAdc a (~~~b) ci).r := by
    simp only [aluSbc, aluAdc, aluResult]
    rw [← BitVec.ofInt_natCast, hsum, ofInt_add_two_pow]
  have hC : (aluSbc a b ci).C = (aluAdc a (~~~b) ci).C := by
    simp only [aluSbc, aluAdc, aluResult, decide_eq_decide]
    omega
  have hV : (aluSbc a b ci).V = (aluAdc a (~~~b) ci).V := by
    rw [aluSbc_V, ← sint_add_complement]
    rfl
  calc aluSbc a b ci
    _ = aluResult (aluSbc a b ci).r (aluSbc a b ci).C (aluSbc a b ci).V := rfl
    _ = aluResult (aluAdc a (~~~b) ci).r (aluAdc a (~~~b) ci).C (aluAdc a (~~~b) ci).V := by rw [hr, hC, hV]
    _ = aluAdc a (~~~b) ci := rfl

end

/-- Settles O50: each identity holds of the operations' results, which are all that an operation drives. -/
theorem aluIdentities : Obligations.AluIdentities := by
  intro s
  have hsbc (ci : Bool) : execAdc ci { s with B := ~~~s.B } = driveAlu (aluSbc s.A s.B ci) { s with B := ~~~s.B } :=
    congrArg (driveAlu · _) (aluSbc_eq_aluAdc_complement s.A s.B ci).symm
  refine ⟨congrArg (driveAlu · s) (aluAdc_false s.A s.B), congrArg (driveAlu · s) (aluSbc_true s.A s.B),
    fun ci => ⟨_, _, rfl, hsbc ci⟩, ⟨_, _, rfl, ?_⟩⟩
  exact (hsbc true).trans (congrArg (driveAlu · _) (aluSbc_true s.A s.B))

/-! ### V of each operation -/

theorem aluAdd_V (a b : Word) : (aluAdd a b).V = outsideSigned (sint a + sint b) := by
  rw [← aluAdc_false]
  exact congrArg outsideSigned (add_zero _)

theorem aluSub_V (a b : Word) : (aluSub a b).V = outsideSigned (sint a - sint b) := by
  rw [← aluSbc_true, aluSbc_V]
  exact congrArg outsideSigned (sub_zero _)

/-- An ALU operation drives its V in `F[0]` (R101). -/
theorem driveAlu_of_V {x : AluResult} {v : Bool} {V : Prop} (hx : x.V = v) (hV : v = true ↔ V) (s : State) :
    ∃ f, driveAlu x s = .next { s with Y := some x.r, F := some f } ∧ (f.getLsbD 0 = true ↔ V) := by
  obtain ⟨-, -, -, hv⟩ := flagBits_getLsbD x.N x.Z x.C x.V
  exact ⟨flagBits x.N x.Z x.C x.V, rfl, by rw [hv, hx, hV]⟩

/-- Settles O47: the range form is V of ADD, SUB and SBC, and the sign form is V of ADC. -/
theorem overflowFlagIsSignedOverflow : Obligations.OverflowFlagIsSignedOverflow := by
  intro s ci
  exact ⟨⟨_, driveAlu_of_V (aluAdd_V s.A s.B) (outsideSigned_iff _) s⟩,
    ⟨_, driveAlu_of_V (aluSub_V s.A s.B) (outsideSigned_iff _) s⟩,
    ⟨_, driveAlu_of_V (aluAdc_V s.A s.B ci) (overflowAdd_iff _ _ _) s⟩,
    ⟨_, driveAlu_of_V (aluSbc_V s.A s.B ci) (outsideSigned_iff _) s⟩⟩

/-- With `r` the word of the exact difference, the zero-boundary wording of SUB's overflow is the range form (R106). -/
theorem outsideSigned_sub_iff {a b r : Word} (hr : r.toInt ≡ a.toInt - b.toInt [ZMOD 2 ^ 32]) :
    outsideSigned (a.toInt - b.toInt) = true ↔
      (0 ≤ a.toInt ∧ b.toInt ≤ 0 ∧ r.toInt < 0) ∨ (a.toInt < 0 ∧ 0 < b.toInt ∧ 0 ≤ r.toInt) := by
  have ha := toInt_range a
  have hb := toInt_range b
  have hrange := toInt_range r
  rw [outsideSigned_iff]
  unfold Int.ModEq at hr
  omega

theorem aluSub_r_modEq (a b : Word) : (aluSub a b).r.toInt ≡ a.toInt - b.toInt [ZMOD 2 ^ 32] := by
  have hr := toInt_ofInt_sub a b 0
  rwa [sub_zero, sub_zero] at hr

/-- Settles O49: V of SUB is signed overflow, and the second wording says the same of the signs and the result. -/
theorem subOverflowZeroBoundary : Obligations.SubOverflowZeroBoundary := fun s =>
  ⟨_, driveAlu_of_V (aluSub_V s.A s.B) (outsideSigned_sub_iff (aluSub_r_modEq s.A s.B)) s⟩

/-! ### SETFLAGS -/

theorem flagsOperand_getLsbD (f : BitVec 4) (i : Nat) : (flagsOperand f).getLsbD (28 + i) = f.getLsbD i := by
  rw [flagsOperand, BitVec.getLsbD_append, if_neg (by omega), Nat.add_sub_cancel_left]

theorem wellFormed_of_alu {i : Instr} (hi : i = .add ∨ i = .sub ∨ (∃ ci, i = .adc ci) ∨ ∃ ci, i = .sbc ci) :
    i.WellFormed := by
  obtain rfl | rfl | ⟨ci, rfl⟩ | ⟨ci, rfl⟩ := hi <;> rfl

/-- The two commands on the block, for an operation that drives the result `r` and the flags `f` of `a` and `b`. -/
theorem run_setflagsRequests {i : Instr} {a b r : Word} {f : BitVec 4} (hd : decode (encode i) = .ok i)
    (hi : ∀ u : State, u.A = a → u.B = b → exec i u = .next (u.withOutputs (some r) (some f))) (s : State) :
    Host.Core.run core 2 { s with pending := setflagsRequests i a b f } =
      .next ((setFlags (flagsOperand f) s).withInterface .wrflags (flagsOperand f) 0 none []) :=
  calc Host.Core.run core 2 { s with pending := setflagsRequests i a b f }
    _ = Host.Core.run core 1 _ := run_asm_of_next rfl hd (hi _ rfl rfl)
    _ = Host.Core.run core 0 _ := run_asm_of_next (i := .wrflags) (rest := []) rfl rfl rfl

theorem setFlags_flagsOperand (f : BitVec 4) (s : State) : (setFlags (flagsOperand f) s).CPSR =
    { s.CPSR with N := f.getLsbD 3, Z := f.getLsbD 2, C := f.getLsbD 1, V := f.getLsbD 0 } := by
  have hbit := flagsOperand_getLsbD f
  rw [← hbit 0, ← hbit 1, ← hbit 2, ← hbit 3]
  rfl

/-- Settles O51: the ALU operation changes the outputs alone, and WRFLAGS installs the four bits it is given. -/
theorem setflagsPutsTheAluFlagsInTheStatus : Obligations.SetflagsPutsTheAluFlagsInTheStatus := by
  intro i s a b hi
  obtain ⟨alu, halu⟩ := exec_alu_eq_driveAlu hi
  have hd : decode (encode i) = .ok i := decode_encode (wellFormed_of_alu hi)
  have hexec (u : State) (hA : u.A = a) (hB : u.B = b) : exec i u = driveAlu (alu a b) u := by rw [halu, hA, hB]
  exact ⟨_, _, _, halu _, run_setflagsRequests hd hexec s, setFlags_flagsOperand _ s, ⟨rfl, rfl, rfl, rfl⟩, rfl⟩

end Sys2Proof.Machine
end

section
/-! PROOFS. The bus contract over plain storage (20_memory.md R31): the bytes a halfword or word write leaves, and what
a read of them answers. -/

namespace Sys2Proof.Machine

/-! ### A word or halfword from its bytes -/

theorem append_bytes_word (v : Word) :
    v.extractLsb' 24 8 ++ v.extractLsb' 16 8 ++ v.extractLsb' 8 8 ++ v.extractLsb' 0 8 = v := by
  apply BitVec.eq_of_getLsbD_eq
  intro i hi
  simp only [BitVec.getLsbD_append, BitVec.getLsbD_extractLsb']
  interval_cases i <;> simp

theorem append_bytes_halfword (v : BitVec 16) : v.extractLsb' 8 8 ++ v.extractLsb' 0 8 = v := by
  apply BitVec.eq_of_getLsbD_eq
  intro i hi
  simp only [BitVec.getLsbD_append, BitVec.getLsbD_extractLsb']
  interval_cases i <;> simp

/-! ### A byte read after a write -/

section
variable {m : BusMemory} (hm : busWf m = true)
include hm

/-- A byte read after bytes are written elsewhere is as it was. -/
theorem read8_writeBytes_of_ne {cells : List Host.Cell} {x : Nat} (hx : ∀ c ∈ cells, x ≠ c.1) :
    read8 (writeBytes cells m) x = read8 m x := by
  induction cells generalizing m with
  | nil => rfl
  | cons c rest ih =>
    rw [writeBytes, ih (busWf_write8 hm c.1 c.2) fun d hd => hx d (List.mem_cons_of_mem c hd), read8_write8 hm,
      if_neg (hx c List.mem_cons_self)]

/-- A byte read where one of several bytes, each at an address of its own, was written is that byte. -/
theorem read8_writeBytes_of_mem {cells : List Host.Cell} (hcells : cells.Pairwise fun c d => c.1 ≠ d.1)
    {x : Nat} {v : Byte} (hc : (x, v) ∈ cells) : read8 (writeBytes cells m) x = v := by
  induction cells generalizing m with
  | nil => cases hc
  | cons c rest ih =>
    obtain ⟨hne, hrest⟩ := List.pairwise_cons.1 hcells
    rw [writeBytes]
    obtain rfl | hc := List.mem_cons.1 hc
    · rw [read8_writeBytes_of_ne (busWf_write8 hm x v) hne, read8_write8 hm, if_pos rfl]
    · exact ih (busWf_write8 hm c.1 c.2) hrest hc

/-! ### Aligned accesses in range -/

section
variable {a : Nat} (v : Word) (ha : busStated a 4 = true)
include ha

theorem read8_write32 (i : Fin 4) : read8 (write32 a v m) (a + i.val) = v.extractLsb' (8 * i.val) 8 := by
  rw [write32, if_pos ha]
  apply read8_writeBytes_of_mem hm (by simp [wordCells])
  fin_cases i <;> simp [wordCells]

theorem read8_write32_of_ne {x : Nat} (hx : x < a ∨ a + 4 ≤ x) : read8 (write32 a v m) x = read8 m x := by
  rw [write32, if_pos ha]
  apply read8_writeBytes_of_ne hm
  simp only [wordCells, List.forall_mem_cons]
  exact ⟨by omega, by omega, by omega, by omega, by simp⟩

theorem read32_write32 : read32 (write32 a v m) a = v := by
  have hbyte := read8_write32 hm v ha
  have h0 : read8 (write32 a v m) a = v.extractLsb' 0 8 := hbyte 0
  have h1 : read8 (write32 a v m) (a + 1) = v.extractLsb' 8 8 := hbyte 1
  have h2 : read8 (write32 a v m) (a + 2) = v.extractLsb' 16 8 := hbyte 2
  have h3 : read8 (write32 a v m) (a + 3) = v.extractLsb' 24 8 := hbyte 3
  rw [read32, if_pos ha, h3, h2, h1, h0, append_bytes_word]

end

section
variable {a : Nat} (v : BitVec 16) (ha : busStated a 2 = true)
include ha

theorem read8_write16 (i : Fin 2) : read8 (write16 a v m) (a + i.val) = v.extractLsb' (8 * i.val) 8 := by
  rw [write16, if_pos ha]
  apply read8_writeBytes_of_mem hm (by simp [halfCells])
  fin_cases i <;> simp [halfCells]

theorem read8_write16_of_ne {x : Nat} (hx : x < a ∨ a + 2 ≤ x) : read8 (write16 a v m) x = read8 m x := by
  rw [write16, if_pos ha]
  apply read8_writeBytes_of_ne hm
  simp only [halfCells, List.forall_mem_cons]
  exact ⟨by omega, by omega, by simp⟩

theorem read16_write16 : read16 (write16 a v m) a = v := by
  have hbyte := read8_write16 hm v ha
  have h0 : read8 (write16 a v m) a = v.extractLsb' 0 8 := hbyte 0
  have h1 : read8 (write16 a v m) (a + 1) = v.extractLsb' 8 8 := hbyte 1
  rw [read16, if_pos ha, h1, h0, append_bytes_halfword]

end

end

/-- Settles O58: the cells of a write are the value's bytes at their addresses, and a read joins them again. -/
theorem busAccessesAreLittleEndian : Obligations.BusAccessesAreLittleEndian := by
  intro m a hm
  exact ⟨fun v ha => ⟨read32_write32 hm v ha, read8_write32 hm v ha, fun x => read8_write32_of_ne hm v ha⟩,
    fun v ha => ⟨read16_write16 hm v ha, read8_write16 hm v ha, fun x => read8_write16_of_ne hm v ha⟩⟩

end Sys2Proof.Machine
end

section
/-! PROOFS. Exception entry and return together (60_exceptions.md R118 to R121): what a return finds of what an entry
left, for one entry, for an entry inside another, and for the two operations that stand for the sequences. -/

namespace Sys2Proof.Machine

/-! ### Return to a status that an entry saved -/

/-- The state after entry into the mode `target`, whose SPSR slot is `k`, element by element (R118). -/
def State.entered (target : Mode) (k : Fin 5) (ret vec : Word) (s : State) : State :=
  { s with
    CPSR := { s.CPSR with mode := target }
    R13_14 := s.R13_14.set (bank1314 target).val (s.R13_14[(bank1314 target).val].set 1 ret)
    PC := vec
    SPSR := s.SPSR.set k.val (packStatus s.CPSR) }

theorem enterException_eq_entered {target : Mode} {k : Fin 5} (hk : spsrIndex target = some k) (ret vec : Word)
    (s : State) : enterException target ret vec s = s.entered target k ret vec := enterException_of_some hk ret vec s

section
variable (s : State) (target : Mode) (k : Fin 5) (ret vec : Word)

theorem entered_SPSR_self : (s.entered target k ret vec).SPSR[k.val] = packStatus s.CPSR := Vector.getElem_set_self _

theorem entered_SPSR_of_ne {j : Fin 5} (h : k ≠ j) : (s.entered target k ret vec).SPSR[j.val] = s.SPSR[j.val] :=
  Vector.getElem_set_ne k.isLt j.isLt (Fin.val_ne_of_ne h)

theorem regIn_lr (m : Mode) : regIn s m 14 = s.R13_14[(bank1314 m).val][1] := rfl

theorem entered_lr_self : regIn (s.entered target k ret vec) target 14 = ret := by
  simp [regIn_lr, State.entered]

theorem entered_lr_of_ne {m : Mode} (h : bank1314 target ≠ bank1314 m) :
    regIn (s.entered target k ret vec) m 14 = regIn s m 14 := by
  simp [regIn_lr, State.entered, Vector.getElem_set_ne, Fin.val_ne_of_ne h]

end

/-- A return from a mode whose saved word is the packing of `c` completes with that status and `l - adj` in the PC. -/
theorem run_leaveRequests_of_saved {s : State} {k : Fin 5} {c : Cpsr} (hk : spsrIndex s.CPSR.mode = some k)
    (hw : s.SPSR[k.val] = packStatus c) (l adj : Word) :
    Host.Core.run core 3 { s with pending := leaveRequests l adj } =
      .next ((writeReg 15 (l - adj) (s.withCpsr c)).withInterface .wrpc (l - adj) 0 none []) := by
  have hrestore : exec .restore (atRestore s l adj []) = installStatus (packStatus c) (atRestore s l adj []) :=
    (restoreSavedStatus_of_some (s := atRestore s l adj []) hk).trans (congrArg (installStatus · _) hw)
  exact run_leaveRequests_of_next s l adj [] (hrestore.trans (installStatus_packStatus c _))

/-- Settles O54: the return finds in the target's slot the word that the entry packed. -/
theorem entryThenReturnGivesTheStatusBack : Obligations.EntryThenReturnGivesTheStatusBack := by
  rintro s target k _ ret vec adj hk rfl
  have hk := mem_spsrSlots.1 hk
  have henter := run_enterRequests s target ret vec (leaveRequests ret adj)
  rw [enterException_eq_entered hk] at henter
  exact ⟨packStatus s.CPSR, _, rfl, (run_add_of_next (b := 3) henter).trans
    (run_leaveRequests_of_saved hk (entered_SPSR_self s target k ret vec) ret adj), rfl, rfl, rfl, rfl, rfl, rfl⟩

/-! ### An entry inside another -/

theorem spsrIndex_injective {m m' : Mode} {k : Fin 5} (h : spsrIndex m = some k) (h' : spsrIndex m' = some k) :
    m = m' := by
  have hfst : ∀ p ∈ spsrSlots, ∀ q ∈ spsrSlots, p.2 = q.2 → p.1 = q.1 := by decide
  exact hfst _ (mem_spsrSlots.2 h) _ (mem_spsrSlots.2 h') rfl

/-- Two privileged modes share no bank of `R13_14` (R21). -/
theorem bank1314_ne_of_some {m m' : Mode} {k : Fin 5} (h : spsrIndex m = some k) (hne : m ≠ m') :
    bank1314 m ≠ bank1314 m' := by
  rw [Ne, bank1314_eq_iff]
  rintro (heq | ⟨hm, -⟩)
  · exact hne heq
  · cases h.symm.trans (spsrIndex_userOrSystem hm)

/-- Settles O55: the inner entry writes the bank and the slot of its own mode, which are not the outer one's. -/
theorem nestedEntryKeepsTheOuterSavedState : Obligations.NestedEntryKeepsTheOuterSavedState := by
  intro s m₁ m₂ k₁ k₂ ret₁ vec₁ ret₂ vec₂ adj hk₁ hk₂ hne
  have hk₁ := mem_spsrSlots.1 hk₁
  have hk₂ := mem_spsrSlots.1 hk₂
  have hslot : k₂ ≠ k₁ := fun h => hne (spsrIndex_injective hk₁ (h ▸ hk₂))
  have hbank : bank1314 m₂ ≠ bank1314 m₁ := bank1314_ne_of_some hk₂ hne.symm
  let w₂ := packStatus { s.CPSR with mode := m₁ }
  let outer := (s.entered m₁ k₁ ret₁ vec₁).withInterface .wrpc vec₁ 0 none
    (enterRequests m₂ w₂ ret₂ vec₂ ++ leaveRequests ret₂ adj)
  have houter := run_enterRequests s m₁ ret₁ vec₁
    (enterRequests m₂ w₂ ret₂ vec₂ ++ leaveRequests ret₂ adj)
  rw [enterException_eq_entered hk₁] at houter
  have hinner := run_enterRequests outer m₂ ret₂ vec₂ (leaveRequests ret₂ adj)
  rw [enterException_eq_entered hk₂] at hinner
  have hsaved := entered_SPSR_self outer m₂ k₂ ret₂ vec₂
  refine ⟨packStatus s.CPSR, w₂, _, rfl, rfl, (run_add_of_next (b := 8) houter).trans
    ((run_add_of_next (b := 3) hinner).trans (run_leaveRequests_of_saved hk₂ hsaved ret₂ adj)),
    rfl, rfl, ?_, ?_, ?_, ?_⟩
  · exact (entered_lr_of_ne outer m₂ k₂ ret₂ vec₂ hbank).trans (entered_lr_self s m₁ k₁ ret₁ vec₁)
  · exact (entered_SPSR_of_ne outer m₂ k₂ ret₂ vec₂ hslot).trans (entered_SPSR_self s m₁ k₁ ret₁ vec₁)
  · exact entered_lr_self outer m₂ k₂ ret₂ vec₂
  · exact hsaved

/-! ### The operations that stand for the sequences -/

/-- Where RESTORE gives a next state it replaces the status alone, and by the same one in every state with the same
block and the same policy. -/
theorem exists_cpsr_of_restore_next {s t : State} (h : restoreSavedStatus s = .next t) :
    ∃ c, ∀ s', SameBlock s s' → s'.invalidMPolicy = s.invalidMPolicy →
      restoreSavedStatus s' = .next ((s'.withCpsr c).withOutputs none none) := by
  cases hk : spsrIndex s.CPSR.mode with
  | none =>
    refine ⟨s.CPSR, fun s' ⟨_, hcpsr, _⟩ _ => ?_⟩
    rw [restoreSavedStatus_of_none (by rw [hcpsr, hk]), ← hcpsr]
    rfl
  | some k =>
    have hrestore (s' : State) (hs : SameBlock s s') : restoreSavedStatus s' = installStatus s.SPSR[k.val] s' := by
      obtain ⟨-, hcpsr, hspsr⟩ := hs
      rw [restoreSavedStatus_of_some (by rw [hcpsr, hk]), hspsr]
    rw [restoreSavedStatus_of_some hk] at h
    obtain ⟨m, hm, -⟩ | ⟨-, -, hf⟩ | ⟨hm, hp, -⟩ := installStatus_cases s.SPSR[k.val] s
    · exact ⟨_, fun s' hs _ => (hrestore s' hs).trans (installStatus_of_some hm s')⟩
    · cases hf.symm.trans h
    · refine ⟨unpackStatus s.SPSR[k.val] s.CPSR.mode, fun s' hs hpolicy => ?_⟩
      have ⟨_, hcpsr, _⟩ := hs
      rw [hrestore s' hs, installStatus_of_none_keepMode hm (hpolicy.trans hp), hcpsr]

theorem returnFromException_of_next {s t : State} (h : restoreSavedStatus s = .next t) (adj : Word) :
    returnFromException adj s = .next (writeReg 15 (readReg s 14 - adj) t) := by
  simp only [returnFromException, h]

/-- Settles O56: entry is the run's own end, and return has the status and the PC of the run's end. -/
theorem entryAndReturnOperationsAreTheSequences : Obligations.EntryAndReturnOperationsAreTheSequences := by
  constructor
  · intro s t target ret vec h
    cases h.symm.trans (run_enterRequests s target ret vec [])
    exact ⟨⟨rfl, rfl, rfl, rfl⟩, rfl, rfl⟩
  · intro s t adj h
    let r := atRestore s (readReg s 14) adj []
    have hself : SameBlock r r := ⟨⟨rfl, rfl, rfl, rfl⟩, rfl, rfl⟩
    have hs : SameBlock r s := ⟨⟨rfl, rfl, rfl, rfl⟩, rfl, rfl⟩
    cases hr : restoreSavedStatus r with
    | refused q => exact absurd hr (restoreSavedStatus_ne_refused r q)
    | fault f => cases h.symm.trans (run_leaveRequests_of_fault s _ adj [] hr)
    | next u =>
      obtain ⟨c, hc⟩ := exists_cpsr_of_restore_next hr
      cases h.symm.trans (run_leaveRequests_of_next s _ adj [] (hc r hself rfl))
      exact ⟨_, returnFromException_of_next (hc s hs rfl) adj, ⟨rfl, rfl, rfl, rfl⟩, rfl, rfl⟩

end Sys2Proof.Machine
end

section
/-! PROOFS. The boot sequence (70_reset_and_hazards.md R132): what its stack commands do to the block, and what the
sequence leaves for each way of selecting the running mode. -/

namespace Sys2Proof.Machine

/-! ### The stack pointers -/

/-- The block after step 2 of boot: each mode in turn is selected and its stack pointer set. -/
def withStacks : List (Mode × Word) → State → State
  | [], s => s
  | p :: sps, s => withStacks sps (writeReg 13 p.2 (setMode p.1 s))

theorem exec_wrsp_withInterface (s : State) (v b : Word) (y : Option Word) (rest : List Request) :
    exec .wrsp (s.withInterface .wrsp v b y rest) = .next ((writeReg 13 v s).withInterface .wrsp v b none rest) := rfl

/-- The stack commands on the block, whatever command stands on the interface before them. -/
theorem run_stackRequests (sps : List (Mode × Word)) (rest : List Request) (k : Nat) (s : State) (i : Instr)
    (a b : Word) : ∃ i' a' b',
      Host.Core.run core ((stackRequests sps).length + k) (s.withInterface i a b none (stackRequests sps ++ rest)) =
        Host.Core.run core k ((withStacks sps s).withInterface i' a' b' none rest) := by
  induction sps generalizing s i a b with
  | nil => exact ⟨i, a, b, by simp [stackRequests, withStacks]⟩
  | cons p sps ih =>
    obtain ⟨i', a', b', hrest⟩ := ih (writeReg 13 p.2 (setMode p.1 s)) .wrsp p.2 0
    have hlength : (stackRequests (p :: sps)).length + k = (stackRequests sps).length + k + 1 + 1 := by
      simp only [stackRequests, List.flatMap_cons, List.length_append, List.length_cons, List.length_nil]
      omega
    refine ⟨i', a', b', ?_⟩
    rw [hlength]
    calc Host.Core.run core ((stackRequests sps).length + k + 1 + 1) _
      _ = Host.Core.run core ((stackRequests sps).length + k + 1) _ :=
        run_withInterface_of_next (decode_encode_setmode_code p.1) (exec_setmode_code_withInterface s _ _ _ _ p.1)
      _ = Host.Core.run core ((stackRequests sps).length + k) _ :=
        run_withInterface_of_next rfl (exec_wrsp_withInterface _ _ _ _ _)
      _ = _ := hrest

theorem regIn_writeReg_sp (m m' : Mode) (v : Word) (s : State) :
    regIn (writeReg 13 v (setMode m s)) m' 13 = if bank1314 m = bank1314 m' then v else regIn s m' 13 := by
  have hslot (n : Mode) : slotOf n (archSel 13) = .spLr (bank1314 n) 0 := rfl
  simp [regIn_eq_readSlot, writeReg, readSlot_writeSlot, hslot]

/-- The stack commands leave a stack pointer that they set in no mode. -/
theorem withStacks_sp_of_ne {sps : List (Mode × Word)} {m : Mode} (h : ∀ p ∈ sps, bank1314 p.1 ≠ bank1314 m)
    (s : State) : regIn (withStacks sps s) m 13 = regIn s m 13 := by
  induction sps generalizing s with
  | nil => rfl
  | cons p sps ih =>
    rw [withStacks, ih fun q hq => h q (List.mem_cons_of_mem p hq), regIn_writeReg_sp, if_neg (h p List.mem_cons_self)]

/-- The stack commands set the stack pointer of every mode listed, where no two share a slot. -/
theorem withStacks_sp_of_mem {sps : List (Mode × Word)} (h : sps.Pairwise fun p q => bank1314 p.1 ≠ bank1314 q.1)
    {p : Mode × Word} (hp : p ∈ sps) (s : State) : regIn (withStacks sps s) p.1 13 = p.2 := by
  induction sps generalizing s with
  | nil => cases hp
  | cons q sps ih =>
    obtain ⟨hne, hsps⟩ := List.pairwise_cons.1 h
    rw [withStacks]
    obtain rfl | hp := List.mem_cons.1 hp
    · rw [withStacks_sp_of_ne fun r hr => (hne r hr).symm, regIn_writeReg_sp, if_pos rfl]
    · exact ih hsps hp _

/-- The stack commands change the mode and the stack pointers alone. -/
theorem withStacks_frame (sps : List (Mode × Word)) (s : State) :
    (∃ m, (withStacks sps s).CPSR = { s.CPSR with mode := m }) ∧ (withStacks sps s).SPSR = s.SPSR ∧
      (withStacks sps s).R0_7 = s.R0_7 ∧ (withStacks sps s).R8_12 = s.R8_12 := by
  induction sps generalizing s with
  | nil => exact ⟨⟨s.CPSR.mode, rfl⟩, rfl, rfl, rfl⟩
  | cons p sps ih => exact ih (writeReg 13 p.2 (setMode p.1 s))

/-! ### Selecting the running mode -/

/-- On the operand `a`, the operation replaces the current status `c` by `f c`, and changes nothing else. -/
def SelectsStatus (i : Instr) (a : Word) (f : Cpsr → Cpsr) : Prop :=
  decode (encode i) = .ok i ∧
    ∀ u : State, u.A = a → exec i u = .next ((u.withCpsr (f u.CPSR)).withOutputs none none)

theorem selectsStatus_setmode (m : Mode) : SelectsStatus (.setmode (code m)) 0 fun c => { c with mode := m } :=
  ⟨decode_encode_setmode_code m, fun u _ => execSetmode_of_some (modeOfCode_code m) u⟩

theorem selectsStatus_unpack {w : Word} {m : Mode} (h : (w.extractLsb' 0 5, m) ∈ modeFields) :
    SelectsStatus .unpack w fun _ => statusOf w m := by
  refine ⟨rfl, ?_⟩
  rintro u rfl
  exact installStatus_of_some (decodeM_eq_some.2 (mem_modeFields.1 h)) u

theorem SelectsStatus.exec_withInterface {i : Instr} {a : Word} {f : Cpsr → Cpsr} (h : SelectsStatus i a f)
    (s : State) (b : Word) (y : Option Word) (rest : List Request) : exec i (s.withInterface i a b y rest) =
      .next ((s.withCpsr (f s.CPSR)).withInterface i a b none rest) := by
  obtain ⟨-, hexec⟩ := h
  exact hexec _ rfl

section
variable {i i' : Instr} {a a' : Word} {f f' : Cpsr → Cpsr} (hselect : SelectsStatus i a f)
  (hagain : SelectsStatus i' a' f') (s : State) (sps : List (Mode × Word)) (entry : Word)
include hselect hagain

/-- The boot sequence on the block, step by step: `v` is the state in which the running mode is selected again. -/
theorem run_bootSequence {v : State} (hv : v = withStacks sps (s.withCpsr (f s.CPSR))) :
    Host.Core.run core (bootSequence (asm i a 0) (asm i' a' 0) sps entry).length
      { s with pending := bootSequence (asm i a 0) (asm i' a' 0) sps entry } =
      .next ((writeReg 15 entry (v.withCpsr (f' v.CPSR))).withInterface .wrpc entry 0 none []) := by
  subst hv
  obtain ⟨hd, hexec⟩ := hselect
  have ⟨hd', _⟩ := hagain
  obtain ⟨j, x, y, hstacks⟩ := run_stackRequests sps [asm i' a' 0, asm .wrpc entry 0] 2
    (s.withCpsr (f s.CPSR)) i a 0
  have hlength : (bootSequence (asm i a 0) (asm i' a' 0) sps entry).length = (stackRequests sps).length + 2 + 1 := by
    simp [bootSequence]
  rw [hlength]
  calc Host.Core.run core ((stackRequests sps).length + 2 + 1) _
    _ = Host.Core.run core ((stackRequests sps).length + 2) ((s.withCpsr (f s.CPSR)).withInterface i a 0 none
          (stackRequests sps ++ [asm i' a' 0, asm .wrpc entry 0])) := run_asm_of_next rfl hd (hexec _ rfl)
    _ = Host.Core.run core 2 _ := hstacks
    _ = Host.Core.run core 1 _ := run_withInterface_of_next hd' (hagain.exec_withInterface _ _ _ _)
    _ = Host.Core.run core 0 _ := run_withInterface_of_next rfl (exec_wrpc_withInterface _ _ _ _ _)

/-- What boot leaves, where selecting the running mode again does not depend on the mode before. -/
theorem boot_completes (hmode : ∀ c m, f' { c with mode := m } = f' c)
    (hsps : sps.Pairwise fun p q => bank1314 p.1 ≠ bank1314 q.1) : ∃ t,
    Host.Core.run core (bootSequence (asm i a 0) (asm i' a' 0) sps entry).length
      { s with pending := bootSequence (asm i a 0) (asm i' a' 0) sps entry } = .next t ∧
    t.CPSR = f' (f s.CPSR) ∧ t.PC = entry ∧ t.SPSR = s.SPSR ∧ t.R0_7 = s.R0_7 ∧ t.R8_12 = s.R8_12 ∧
    ∀ p ∈ sps, regIn t p.1 13 = p.2 := by
  obtain ⟨⟨m, hcpsr⟩, hspsr, hlow, hmid⟩ := withStacks_frame sps (s.withCpsr (f s.CPSR))
  refine ⟨_, run_bootSequence hselect hagain s sps entry rfl, ?_, rfl, hspsr, hlow, hmid, fun p hp => ?_⟩
  · exact (congrArg f' hcpsr).trans (hmode _ m)
  · exact withStacks_sp_of_mem hsps hp _

end

/-- Settles O57: UNPACK of the word selects its status at either step. -/
theorem bootSetsStatusStacksAndEntry : Obligations.BootSetsStatusStacksAndEntry := by
  intro s w0 entry m0 sps hw hsps
  have hunpack := selectsStatus_unpack hw
  exact boot_completes hunpack hunpack s sps entry (fun _ _ => rfl) hsps

/-- Settles O59: either selection gives the mode, and the word gives the flags and `ctl` wherever it is unpacked. -/
theorem bootMayUseSetmode : Obligations.BootMayUseSetmode := by
  intro s w0 entry m0 sps select again c hw hsps hform
  have hunpack := selectsStatus_unpack hw
  have hsetmode := selectsStatus_setmode m0
  simp only [List.mem_cons, Prod.mk.injEq, List.not_mem_nil, or_false] at hform
  obtain ⟨rfl, rfl, rfl⟩ | ⟨rfl, rfl, rfl⟩ | ⟨rfl, rfl, rfl⟩ := hform
  · exact boot_completes hsetmode hsetmode s sps entry (fun _ _ => rfl) hsps
  · exact boot_completes hunpack hsetmode s sps entry (fun _ _ => rfl) hsps
  · exact boot_completes hsetmode hunpack s sps entry (fun _ _ => rfl) hsps

end Sys2Proof.Machine
end
